-- ==== Sys2Proof/Word.lean ====
section
/-! DEFINITION. The words of the RL48 and their plainest arithmetic (00_scope.md, "Conventions"). -/
namespace Sys2Proof

/-- One byte of a frame, a cell or the sample buffer. -/
abbrev Byte := BitVec 8
/-- A time in whole ticks: 56 bits, modulo 2^56 (00_scope.md, "Time"). -/
abbrev Tick := BitVec 56
/-- A time in sub-ticks: the whole ticks times 256 plus the fraction, modulo 2^64 (00_scope.md, "Time"). -/
abbrev SubTick := BitVec 64
/-- A stream sequence number, modulo 2^16 (00_scope.md, "Sequence numbers"). -/
abbrev Seq := BitVec 16
/-- A trigger id (R172). -/
abbrev TrigId := BitVec 16
/-- A 32-bit counter that wraps to 0. Three counts of a port wrap by the model's choice (log 66). -/
abbrev Ctr := BitVec 32
/-- A link port P0 to P3. -/
abbrev PortId := Fin 4
/-- An instrument slot S0 to S7. -/
abbrev SlotId := Fin 8
/-- A phase window W0 to W3. -/
abbrev WinId := Fin 4
/-- A stream table entry. -/
abbrev EntryId := Fin 32
/-- A set of ports or of windows: bit n stands for P n or W n (10_formats.md). -/
abbrev Set4 := BitVec 4
/-- A set of slots or of trigger lines: bit n stands for S n or L n (10_formats.md). -/
abbrev Set8 := BitVec 8

/-- The whole ticks of a reading in sub-ticks. -/
def wholeTicks (r : SubTick) : Tick := BitVec.ofNat 56 (r.toNat / 256)

/-- The reading of a whole tick with fraction 0. -/
def atTick (t : Tick) : SubTick := BitVec.ofNat 64 (t.toNat * 256)

/-- The ports in ascending order. -/
def allPorts : List PortId := [0, 1, 2, 3]
/-- The windows in ascending order. -/
def allWins : List WinId := [0, 1, 2, 3]
/-- The slots in ascending order. -/
def allSlots : List SlotId := [0, 1, 2, 3, 4, 5, 6, 7]
/-- The stream entries in ascending order. -/
def allEntries : List EntryId :=
  [0, 1, 2, 3, 4, 5, 6, 7, 8, 9, 10, 11, 12, 13, 14, 15,
   16, 17, 18, 19, 20, 21, 22, 23, 24, 25, 26, 27, 28, 29, 30, 31]

end Sys2Proof
end

