-- ==== Sys2Proof/Config.lean ====
section
/-! DEFINITION. What the part fixes as numbers, and the values the spec leaves open. -/
namespace Sys2Proof.Config

/-- Oscillator ticks in one millisecond (00_scope.md, "Time"; R71). -/
def ticksPerMs : Nat := 125000
/-- E after a reset (R3). -/
def epochDefault : Nat := 125000
/-- The least and the greatest E (R3). -/
def epochMin : Nat := 4096
def epochMax : Nat := 16777215
/-- The saturation of the phase error and the bound of a window limit (R11, R34). -/
def errorMax : Nat := 8388607
/-- The greatest measured delay and the bound of Dmin and Dmax (R70, R99). -/
def delayMax : Nat := 1048575
/-- Cells a timing queue holds (R105). -/
def timingDepth : Nat := 4
/-- Cells a control queue holds (R106). -/
def controlDepth : Nat := 16
/-- Block slots of the sample buffer (R125). -/
def blockSlots : Nat := 4096
/-- Payload bytes of one block slot (R125). -/
def slotBytes : Nat := 512
/-- Entries of the trigger queue (R173). -/
def trigDepth : Nat := 16
/-- Records of the fired history (R174). -/
def historyDepth : Nat := 16
/-- Records of the notice list (R202). -/
def noticeDepth : Nat := 32
/-- The revision that `hub.id` reports (R198). -/
def revision : Nat := 3

/-- What a byte of the sample buffer reads as when nothing has written it. R125 leaves the contents after
power-up undefined; DESIGN CHOICE (log 6). No rule lets such a byte reach a cell or a sink. -/
def bufferPowerUp : BitVec 8 := 0

/-- Whether a readout in milliseconds of a timer with this many oscillator ticks left rounds up. R102 and R170
ask for the milliseconds remaining and do not say how a part of a millisecond is rounded: a free value (log 9). -/
opaque readoutRoundsUp : Nat → Bool

end Sys2Proof.Config
end

