-- ==== Sys2Proof/Syntax.lean ====
section
/-! DEFINITION. The commands of the RL48: one constructor of `Instr` per row of spec/opcode_table.json, with the
fields its request body (R209), its link cell (R207) or its pin event carries. A request's fields are plain numbers:
the rule that owns the request says which values it takes, and `WellFormed.lean` says which fit the layout. -/
namespace Sys2Proof

/-! ### Link cells (R104, R207) -/

/-- A MARKER cell: sender frame, hop count, grade flag, origin-aligned flag, upstream frame, E, stamp M (R6). -/
structure MarkerCell where
  sender : Nat
  hop : Nat
  grade : Bool
  aligned : Bool
  upstream : Nat
  epoch : Nat
  stamp : SubTick
  deriving DecidableEq, Repr

/-- A PROBE cell: sender frame, attempt number, probe index, departure stamp t1 (R80). -/
structure ProbeCell where
  sender : Nat
  attempt : Nat
  index : Nat
  t1 : SubTick
  deriving DecidableEq, Repr

/-- An ECHO cell: responder frame, then the probe's sender, attempt and index, and t2 and t3 (R81). -/
structure EchoCell where
  responder : Nat
  sender : Nat
  attempt : Nat
  index : Nat
  t2 : SubTick
  t3 : SubTick
  deriving DecidableEq, Repr

/-- A CREDIT cell: rack id and credit limit (R104). -/
structure CreditCell where
  rackId : Nat
  limit : Seq
  deriving DecidableEq, Repr

/-- A TRIGGER cell: id, fire time, line set, hop limit (R178). -/
structure TriggerCell where
  id : TrigId
  fireTime : Tick
  lines : Set8
  hop : Nat
  deriving DecidableEq, Repr

/-- A CANCEL cell: id and hop limit (R185). -/
structure CancelCell where
  id : TrigId
  hop : Nat
  deriving DecidableEq, Repr

/-- A SAMPLE cell: one block with its rack id (R104, R127). The trigger mark is its id and sample offset. -/
structure SampleCell where
  rackId : Nat
  seq : Seq
  stamp : Tick
  trusted : Bool
  disc : Bool
  short : Bool
  mark : Option (TrigId × BitVec 16)
  extraMarks : Nat
  payload : List Byte
  deriving DecidableEq, Repr

/-- A cell on a link, of any kind (R104). -/
inductive Cell where
  | marker (c : MarkerCell)
  | probe (c : ProbeCell)
  | echo (c : EchoCell)
  | credit (c : CreditCell)
  | query (rackId : Nat)
  | trigger (c : TriggerCell)
  | cancel (c : CancelCell)
  | quiesce
  | resume
  | sample (c : SampleCell)
  deriving DecidableEq, Repr

/-- The port a cell came in on, and whether the port took cells at the instant the cell began to arrive (R78; log 16). -/
structure ArrivalPort where
  port : PortId
  begun : Bool
  deriving DecidableEq, Repr

/-- The levels of ROOT_STRAP and PORT_EN_STRAP (R198, R200). -/
structure Straps where
  root : Bool
  portEn : Bool
  deriving DecidableEq, Repr

/-! ### Request bodies (R209). An absent optional field is `none`. -/

structure TbCfgReq where
  role : Option Nat := none
  epoch : Option Nat := none
  tstep : Option Nat := none
  p : Option Nat := none
  i : Option Nat := none
  fmax : Option Nat := none
  smax : Option Nat := none
  spacingTol : Option Nat := none
  autoRecover : Option Nat := none
  holdoverLimit : Option Nat := none
  deriving DecidableEq, Repr

structure WinCfgReq where
  window : Nat
  lower : Option Int := none
  upper : Option Int := none
  inUse : Option Nat := none
  notice : Option Nat := none
  deriving DecidableEq, Repr

structure QualCfgReq where
  qualifier : Nat
  coupled : Option Nat := none
  clearOnExit : Option Nat := none
  entryOnly : Option Nat := none
  dropOnFault : Option Nat := none
  originRequired : Option Nat := none
  deriving DecidableEq, Repr

structure OrgCfgReq where
  value : Option Nat := none
  period : Option Nat := none
  tolerance : Option Nat := none
  settleLen : Option Nat := none
  originRequired : Option Nat := none
  deriving DecidableEq, Repr

structure PortCfgReq where
  port : Nat
  debounce : Option Nat := none
  signalWait : Option Nat := none
  grace : Option Nat := none
  drainTimeout : Option Nat := none
  threshold : Option Nat := none
  dmin : Option Nat := none
  dmax : Option Nat := none
  deriving DecidableEq, Repr

structure StrmOpenReq where
  entry : Nat
  rackId : Nat
  mode : Nat
  /-- 0x00 to 0x07 name S0 to S7, 0x10 to 0x13 name P0 to P3 (10_formats.md). -/
  source : Nat
  destPorts : BitVec 8
  destSlots : BitVec 8
  base : Nat
  len : Nat
  payload : Nat
  width : Nat
  interval : Nat
  priority : Option Nat := none
  gate : Option Nat := none
  ageLimit : Option Nat := none
  holdLimit : Option Nat := none
  drainLimit : Option Nat := none
  latency : Option Nat := none
  initSeq : Option Nat := none
  deriving DecidableEq, Repr

structure StrmDestReq where
  entry : Nat
  addPorts : BitVec 8
  addSlots : BitVec 8
  removePorts : BitVec 8
  removeSlots : BitVec 8
  deriving DecidableEq, Repr

structure SlotCfgReq where
  slot : Nat
  debounce : Option Nat := none
  strobe : Option Nat := none
  subscription : Option (BitVec 8) := none
  deriving DecidableEq, Repr

structure SlotClkReq where
  slot : Nat
  divider : Option Nat := none
  phase : Option Nat := none
  deriving DecidableEq, Repr

structure NtcMaskReq where
  maskClasses : BitVec 8
  maskKinds : BitVec 40
  enableClasses : BitVec 8
  enableKinds : BitVec 40
  deriving DecidableEq, Repr

/-- The commands, one per row of spec/opcode_table.json. A request's constructor is the request at its instant of
decoding (R191, stage 2); an event's constructor is the event taken at its instant. -/
inductive Instr where
  -- reset and SPI (chapter 9)
  /-- The level of the pin RESET, and the straps, which a release samples (R200). -/
  | resetPin (asserted : Bool) (straps : Straps)
  /-- A transaction with this first byte, and this many bytes clocked after it (R192). -/
  | spiUnknownTransaction (first : Byte) (clocked : Nat)
  /-- The rise of SEL ending a write transaction; the bytes received after the first (R193). -/
  | requestFrameWrite (bytes : List Byte)
  | replyMadeReady
  /-- A read transaction in which this many bytes are clocked after the first (R195). -/
  | replyRead (clocked : Nat)
  -- timebase requests (chapter 1)
  | tbCfg (r : TbCfgReq)
  | tbRef (mode port : Nat)
  | tbRealign
  | tbNow
  | tbStat
  | tbOffset (offset : Int)
  -- phase window requests (chapter 2)
  | winCfg (r : WinCfgReq)
  | winHyst (h : Nat)
  | qualCfg (r : QualCfgReq)
  | qualMode (qualifier mode : Nat)
  | winStat
  -- origin requests (chapter 3)
  | orgCfg (r : OrgCfgReq)
  | orgArm
  | orgDisarm
  | orgStat
  -- port requests (chapter 4)
  | portCfg (r : PortCfgReq)
  | portCtlEnable (port : Nat)
  | portCtlDisable (port : Nat)
  | portCtlDrain (port : Nat)
  | portCtlResume (port : Nat)
  | portCtlRetrain (port : Nat)
  | portStat (port : Nat)
  -- transmission requests (chapter 5)
  | xmitCfg (creditTimeout retryLimit : Option Nat)
  | xmitStat (port : Nat)
  -- stream requests (chapter 6)
  | strmOpen (r : StrmOpenReq)
  | strmStart (entry : Nat)
  | strmStop (entry : Nat)
  | strmClose (entry : Nat)
  | strmWindow (entry base len : Nat)
  | strmDest (r : StrmDestReq)
  | strmStat (entry : Nat)
  -- slot requests (chapter 7)
  | slotCfg (r : SlotCfgReq)
  | slotClk (r : SlotClkReq)
  /-- The request, with the level of Sn_VALID at its decoding (R170). -/
  | slotStat (slot : Nat) (validLevel : Bool)
  -- trigger requests (chapter 8)
  | trgSched (fireTime : Nat) (lines : Set8) (hop : Option Nat)
  | trgCancel (id : Nat) (hop : Option Nat)
  | trgCfg (lateWindow defaultHop : Option Nat)
  | trgList (part first : Nat)
  -- hub and notice requests (chapter 9)
  | hubId
  | hubFrame (frame : Nat)
  /-- The request, with the levels of the straps at its decoding (R200). -/
  | hubResetAll (rootStrap portEnStrap : Bool)
  | hubResetTraffic
  | ntcMask (r : NtcMaskReq)
  | ntcGet (count : Option Nat)
  -- events of time
  | epochBoundary
  /-- A sample instant of a slot, with Sn_VALID and the value on the input lane of Sn_DATA (R161). -/
  | sampleInstant (slot : SlotId) (valid : Bool) (data : BitVec 32)
  | triggerFire (id : TrigId)
  -- origin pins (chapter 3)
  | startRise
  | startFall
  | refPulseEdge
  -- port pins, timers and conditions (chapter 4)
  | portPresentRise (port : PortId)
  | portPresentFall (port : PortId)
  | portSignalRise (port : PortId)
  | portSignalFall (port : PortId)
  | portDebounceExpiry (port : PortId)
  | signalWaitExpiry (port : PortId)
  | graceExpiry (port : PortId)
  | drainTimeout (port : PortId)
  | drainComplete (port : PortId)
  | silenceTimeout
  -- slot pins and timers (chapter 7)
  | slotPresentRise (slot : SlotId)
  | slotDebounceExpiry (slot : SlotId)
  | slotPresentFall (slot : SlotId)
  -- cells received; `arrival` is the reading at the instant the cell began to arrive (R7, R81, R82)
  | cellBadCrc (port : ArrivalPort)
  | cellUnknownKind (port : ArrivalPort)
  | markerReceived (port : ArrivalPort) (c : MarkerCell) (arrival : SubTick)
  | probeReceived (port : ArrivalPort) (c : ProbeCell) (arrival : SubTick)
  | echoReceived (port : ArrivalPort) (c : EchoCell) (arrival : SubTick)
  | creditReceived (port : ArrivalPort) (c : CreditCell)
  | queryReceived (port : ArrivalPort) (rackId : Nat)
  | sampleReceived (port : ArrivalPort) (c : SampleCell)
  | triggerReceived (port : ArrivalPort) (c : TriggerCell)
  | cancelReceived (port : ArrivalPort) (c : CancelCell)
  | quiesceReceived (port : ArrivalPort)
  | resumeReceived (port : ArrivalPort)
  -- cells sent (chapter 5)
  | cellDeparture (port : PortId)
  | cellCompletion (port : PortId)
  -- the oscillator (R1)
  | oscillatorTick
  deriving DecidableEq, Repr

end Sys2Proof
end

