-- ==== Sys2Proof/Machine/State.lean ====
section
/-! DEFINITION. Every piece of state the spec gives the RL48, as plain data, and its value after reset.
INVENTORY.md lists the fields with the rule that names each. -/
namespace Sys2Proof.Machine

/-! ### Timebase unit (chapter 1) -/

inductive Role where
  | root | member
  deriving DecidableEq, Repr

/-- The servo states (R9). -/
inductive ServoState where
  | free | acquire | track | holdover | master
  deriving DecidableEq, Repr

inductive RefMode where
  | auto | manual
  deriving DecidableEq, Repr

/-- The servo parameters (R15). -/
structure ServoParams where
  tstep : Nat
  p : Nat
  i : Nat
  fmax : Nat
  smax : Nat
  spacingTol : Nat
  autoRecover : Bool
  holdoverLimit : Nat
  deriving DecidableEq, Repr

/-- The defaults of R15. -/
def ServoParams.reset : ServoParams :=
  { tstep := 65536, p := 2, i := 6, fmax := 8192, smax := 4096, spacingTol := 256, autoRecover := true,
    holdoverLimit := 10000 }

/-- The timebase unit (R1 to R33). `advFrom`, `dueBoundary` and `dueSample` record what the last oscillator
advance passed (log 1). -/
structure Timebase where
  reading : SubTick
  remainder : Nat
  gain : Nat
  epoch : Nat
  epochStaged : Option Nat
  role : Role
  servo : ServoState
  freq : Int
  slew : Int
  ref : Option PortId
  hadRef : Bool
  refMode : RefMode
  chosen : Option PortId
  lastE : Int
  excursions : Nat
  goodSpacings : Nat
  holdoverCount : Nat
  holdoverLimitHit : Bool
  stepCount : Ctr
  spacing : Option Tick
  silence : Option Nat
  params : ServoParams
  advFrom : Tick
  dueBoundary : Bool
  dueSample : Set8
  deriving DecidableEq, Repr

/-- R33, the column of the RESET pin. -/
def Timebase.reset (root : Bool) : Timebase :=
  { reading := 0, remainder := 0, gain := 32000000, epoch := Config.epochDefault, epochStaged := none,
    role := if root then .root else .member, servo := if root then .master else .free, freq := 0, slew := 0,
    ref := none, hadRef := false, refMode := .auto, chosen := none, lastE := 0, excursions := 0,
    goodSpacings := 0, holdoverCount := 0, holdoverLimitHit := false, stepCount := 0, spacing := none,
    silence := none, params := ServoParams.reset, advFrom := 0, dueBoundary := false, dueSample := 0 }

/-! ### Phase window unit (chapter 2) -/

inductive NoticeOption where
  | all | entryOnly | none
  deriving DecidableEq, Repr

/-- The four settings of a window (R34). -/
structure WinSetting where
  lower : Int
  upper : Int
  inUse : Bool
  notice : NoticeOption
  deriving DecidableEq, Repr

/-- One phase window (R34). `staged` is its pending setting; a released band is `none`. -/
structure Window where
  inForce : WinSetting
  staged : Option WinSetting
  inside : Bool
  reported : Bool
  band : Option Int
  deriving DecidableEq, Repr

def Window.reset : Window :=
  { inForce := { lower := 0, upper := 0, inUse := false, notice := .all }, staged := none, inside := false,
    reported := false, band := none }

/-- An evaluation record (R35). -/
structure EvalRecord where
  e : Int
  servo : ServoState
  stepped : Bool
  deriving DecidableEq, Repr

inductive QualMode where
  | auto | forceOn | forceOff
  deriving DecidableEq, Repr

/-- A qualifier (R40). A released band is `none`. -/
structure Qualifier where
  mode : QualMode
  coupled : Set4
  clearOnExit : Bool
  entryOnly : Bool
  dropOnFault : Bool
  originRequired : Bool
  on : Bool
  band : Option Int
  deriving DecidableEq, Repr

def Qualifier.reset : Qualifier :=
  { mode := .auto, coupled := 1, clearOnExit := true, entryOnly := false, dropOnFault := true,
    originRequired := false, on := false, band := none }

/-- The two qualifiers (R40). -/
inductive QualName where
  | stamp | grade
  deriving DecidableEq, Repr

structure WindowUnit where
  wins : Vector Window 4
  hyst : Nat
  prevValid : Bool
  prevE : Int
  lastEval : Option EvalRecord
  stamp : Qualifier
  grade : Qualifier
  limitFlag : Bool
  deriving DecidableEq, Repr

/-- R54, the column of the RESET pin, before the root rule of R45. -/
def WindowUnit.reset : WindowUnit :=
  { wins := Vector.replicate 4 Window.reset, hyst := 256, prevValid := false, prevE := 0, lastEval := none,
    stamp := Qualifier.reset, grade := Qualifier.reset, limitFlag := false }

/-! ### Origin unit (chapter 3) -/

inductive OriginState where
  | idle | armed | syncing | settling | aligned
  deriving DecidableEq, Repr

/-- The origin unit (R55), and the sensed level of START (R57). `settleShift` is the model's own: the multiples of E that
`tb.offset` has skipped in SETTLING since the last boundary, less those it has yet to pass again (R61; log 51). -/
structure Origin where
  state : OriginState
  value : Tick
  period : Nat
  tolerance : Nat
  settleLen : Nat
  settleCtr : Nat
  settleShift : Int
  pulseSeen : Bool
  disarmPending : Bool
  aligned : Bool
  lastArrival : Option SubTick
  deviation : Option Int
  pulseCount : Ctr
  startLevel : Bool
  deriving DecidableEq, Repr

/-- R55; the level of the pin START is not part of the reset. -/
def Origin.reset (start : Bool) : Origin :=
  { state := .idle, value := 0, period := 125000000, tolerance := 16, settleLen := 2, settleCtr := 0,
    settleShift := 0, pulseSeen := false, disarmPending := false, aligned := false, lastArrival := none, deviation := none,
    pulseCount := 0, startLevel := start }

/-! ### Link ports and cell transmission (chapters 4 and 5) -/

/-- The link states (R70). -/
inductive LinkState where
  | disabled | empty | settling | waiting | training | active | lost | draining | quiesced | isolated
  deriving DecidableEq, Repr

/-- The isolation causes (R70, R88). -/
inductive IsoCause where
  | none | noSignal | training | delayRange | selfLoop | errors
  deriving DecidableEq, Repr

/-- The port settings (R99); times in milliseconds. -/
structure PortSettings where
  debounce : Nat
  signalWait : Nat
  grace : Nat
  drainTimeout : Nat
  threshold : Nat
  dmin : Nat
  dmax : Nat
  deriving DecidableEq, Repr

def PortSettings.reset : PortSettings :=
  { debounce := 50, signalWait := 1000, grace := 20, drainTimeout := 500, threshold := 32, dmin := 0,
    dmax := 262144 }

/-- The training record (R70). `outstanding` is the outstanding probe's index and t1. `earlier` is the model's own: how
many PROBE cells of an earlier run of the training still wait in the timing queue (log 38). -/
structure Training where
  attempt : Nat
  probeCount : Nat
  outstanding : Option (Nat × SubTick)
  rts : Vector (Option Nat) 8
  dmin : Nat
  dmax : Nat
  responder : Option Nat
  earlier : Nat
  deriving DecidableEq, Repr

/-- R103: cleared; attempt 0, probe count 0, window [0, 262,144]. -/
def Training.reset : Training :=
  { attempt := 0, probeCount := 0, outstanding := none, rts := Vector.replicate 8 none, dmin := 0,
    dmax := 262144, responder := none, earlier := 0 }

/-- The last-marker record of a port when it is valid (R7). -/
structure MarkerRecord where
  sender : Nat
  epoch : Nat
  hop : Nat
  grade : Bool
  aligned : Bool
  upstream : Nat
  age : Nat
  deriving DecidableEq, Repr

/-- A cell waiting in a timing queue, with the fields fixed when it was offered (R104). -/
inductive TimingCell where
  | marker
  | probe (sender attempt index : Nat)
  | echo (responder sender attempt index : Nat) (t2 : SubTick)
  deriving DecidableEq, Repr

/-- A cell waiting in a control queue (R106). A CREDIT or QUERY names its stream entry. -/
inductive ControlCell where
  | credit (entry : EntryId)
  | query (entry : EntryId)
  | trigger (c : TriggerCell)
  | cancel (c : CancelCell)
  | quiesce
  | resume
  deriving DecidableEq, Repr

/-- The cell in flight on a port (R109): the cell as it departed, and the stream entry of a SAMPLE, CREDIT or
QUERY with its stale mark. -/
structure Flight where
  cell : Cell
  entry : Option EntryId
  stale : Bool
  deriving DecidableEq, Repr

/-- A port: its record (R70), its last-marker record and mismatch flag (R7), its transmission state (R124), and
the sensed levels of its two pins. Timers hold the oscillator ticks left; `none` is stopped. `resumeProbe` is the
model's own: whether the cell that set resume-pending was a PROBE (log 15). -/
structure Port where
  link : LinkState
  cause : IsoCause
  debounce : Option Nat
  signalWait : Option Nat
  grace : Option Nat
  drain : Option Nat
  train : Training
  delay : Nat
  peer : Nat
  score : Nat
  quiesceOwed : Bool
  resumeOwed : Bool
  resumePending : Bool
  resumeProbe : Bool
  badCrc : Ctr
  cfg : PortSettings
  marker : Option MarkerRecord
  mismatch : Bool
  present : Bool
  signal : Bool
  timingQ : List TimingCell
  ctrlQ : List ControlCell
  flight : Option Flight
  level1 : Nat
  level2 : Nat
  startedTiming : Ctr
  startedControl : Ctr
  startedSample : Ctr
  timingRefused : Ctr
  markerReplaced : Ctr
  abandoned : Ctr
  unknownStream : Ctr
  deriving DecidableEq, Repr

/-- R103 and R124, the columns of the RESET pin, with R72 applied: a port that enters EMPTY with Pn_PRESENT
already high goes to SETTLING and loads its debounce timer. The levels of the two pins are kept. -/
def Port.reset (enabled presentLevel signalLevel : Bool) : Port :=
  { link := if enabled then (if presentLevel then .settling else .empty) else .disabled,
    cause := .none,
    debounce := if enabled && presentLevel then some (PortSettings.reset.debounce * Config.ticksPerMs) else none,
    signalWait := none, grace := none, drain := none, train := Training.reset, delay := 0, peer := 0, score := 0,
    quiesceOwed := false, resumeOwed := false, resumePending := false, resumeProbe := false, badCrc := 0, cfg := PortSettings.reset,
    marker := none, mismatch := false, present := presentLevel, signal := signalLevel, timingQ := [], ctrlQ := [],
    flight := none, level1 := 32, level2 := 31, startedTiming := 0, startedControl := 0, startedSample := 0,
    timingRefused := 0, markerReplaced := 0, abandoned := 0, unknownStream := 0 }

/-- The hub-wide transmission settings (R122). -/
structure XmitSettings where
  creditTimeout : Nat
  retryLimit : Nat
  deriving DecidableEq, Repr

def XmitSettings.reset : XmitSettings := { creditTimeout := 8, retryLimit := 3 }

/-! ### Stream table and sample buffer (chapter 6) -/

/-- A block held by an entry (R127), with the block slot it occupies (R126) and, while it is open, its age in
epoch boundaries (R138). Route and pending set are each a set of ports and a set of slots. -/
structure Block where
  seq : Seq
  stamp : Tick
  trusted : Bool
  disc : Bool
  short : Bool
  mark : Option (TrigId × BitVec 16)
  extraMarks : Nat
  len : Nat
  isOpen : Bool
  routePorts : Set4
  routeSlots : Set8
  pendPorts : Set4
  pendSlots : Set8
  slot : Nat
  age : Nat
  deriving DecidableEq, Repr

/-- The stream states (R128). -/
inductive StreamState where
  | closed | ready | running | stalled | closing
  deriving DecidableEq, Repr

inductive StreamMode where
  | live | lossless
  deriving DecidableEq, Repr

/-- A stream source: one slot, or one port (R128). -/
inductive Source where
  | slot (k : SlotId)
  | port (p : PortId)
  deriving DecidableEq, Repr

/-- A credit record (R114). -/
structure CreditRecord where
  limit : Option Seq
  timeouts : Nat
  queries : Nat
  deriving DecidableEq, Repr

def CreditRecord.fresh : CreditRecord := { limit := none, timeouts := 0, queries := 0 }

/-- The counters of a stream entry (R152). -/
structure StreamCounters where
  created : Ctr
  retired : Ctr
  skipped : Ctr
  flushed : Ctr
  gated : Ctr
  unrouted : Ctr
  overrun : Ctr
  gaps : Ctr
  duplicates : Ctr
  overLimit : Ctr
  late : Vector Ctr 8
  deriving DecidableEq, Repr

def StreamCounters.zero : StreamCounters :=
  { created := 0, retired := 0, skipped := 0, flushed := 0, gated := 0, unrouted := 0, overrun := 0, gaps := 0,
    duplicates := 0, overLimit := 0, late := Vector.replicate 8 0 }

/-- A stream entry (R128). Its destination set is `destPorts` and `destSlots`; a destination is abandoned when it
is in `abandonedPorts`, and otherwise live or dormant by the state of its port or slot (R129). -/
structure Entry where
  state : StreamState
  opened : Bool
  rackId : Nat
  mode : StreamMode
  priority : Bool
  gate : Bool
  source : Source
  destPorts : Set4
  destSlots : Set8
  abandonedPorts : Set4
  payload : Nat
  width : Nat
  interval : Nat
  ageLimit : Nat
  holdLimit : Nat
  drainLimit : Nat
  latency : Nat
  initSeq : Seq
  base : Nat
  len : Nat
  stagedWin : Option (Nat × Nat)
  writePos : Nat
  ring : List Block
  outside : Option Block
  nextSeq : Seq
  nextExp : Seq
  lastAdv : Option Seq
  owedCredit : Bool
  credit : Vector CreditRecord 4
  discOwed : Bool
  hold : Bool
  holdCount : Nat
  drainCount : Nat
  awaitBoundary : Bool
  waiting : List TrigId
  counters : StreamCounters
  deriving DecidableEq, Repr

/-- R154, the column of the RESET pin: CLOSED, every field cleared. -/
def Entry.reset : Entry :=
  { state := .closed, opened := false, rackId := 0, mode := .live, priority := false, gate := false,
    source := .slot 0, destPorts := 0, destSlots := 0, abandonedPorts := 0, payload := 0, width := 0,
    interval := 0, ageLimit := 0, holdLimit := 0, drainLimit := 0, latency := 0, initSeq := 0, base := 0,
    len := 0, stagedWin := none, writePos := 0, ring := [], outside := none, nextSeq := 0, nextExp := 0,
    lastAdv := none, owedCredit := false, credit := Vector.replicate 4 CreditRecord.fresh, discOwed := false,
    hold := false, holdCount := 0, drainCount := 0, awaitBoundary := false, waiting := [],
    counters := StreamCounters.zero }

/-! ### Slots (chapter 7) -/

inductive Presence where
  | empty | settling | present
  deriving DecidableEq, Repr

inductive StrobeMode where
  | off | epoch | epochAndBlock
  deriving DecidableEq, Repr

/-- The slot settings (R169). -/
structure SlotSettings where
  debounce : Nat
  strobe : StrobeMode
  subscription : Set8
  deriving DecidableEq, Repr

def SlotSettings.reset : SlotSettings := { debounce := 20, strobe := .off, subscription := 0 }

/-- The slot counters (R155). -/
structure SlotCounters where
  instants : Ctr
  validReads : Ctr
  invalidReads : Ctr
  heldInstants : Ctr
  samplesOut : Ctr
  blocksOut : Ctr
  underruns : Ctr
  trigPulses : Ctr
  strobePulses : Ctr
  deriving DecidableEq, Repr

def SlotCounters.zero : SlotCounters :=
  { instants := 0, validReads := 0, invalidReads := 0, heldInstants := 0, samplesOut := 0, blocksOut := 0,
    underruns := 0, trigPulses := 0, strobePulses := 0 }

/-- A slot record (R155), its one-tick outputs, and the sensed level of Sn_PRESENT. `presenting` is the block
being presented: its sequence and the number of samples already presented. -/
structure Slot where
  presence : Presence
  debounce : Option Nat
  divider : Nat
  phase : Nat
  stagedClk : Option (Nat × Nat)
  cfg : SlotSettings
  lastValue : BitVec 32
  lastWidth : Nat
  presenting : Option (Seq × Nat)
  playingFlag : Bool
  underrun : Bool
  lastBegun : Seq
  head : Option (Seq × Tick)
  counters : SlotCounters
  sclkEdge : Bool
  trigPulse : Bool
  strobePulse : Bool
  present : Bool
  deriving DecidableEq, Repr

/-- R171, the column of the RESET pin, with R156 applied: a slot that enters EMPTY with Sn_PRESENT already high
goes to SETTLING and loads its debounce timer. -/
def Slot.reset (presentLevel : Bool) : Slot :=
  { presence := if presentLevel then .settling else .empty,
    debounce := if presentLevel then some (SlotSettings.reset.debounce * Config.ticksPerMs) else none,
    divider := 0, phase := 0, stagedClk := none, cfg := SlotSettings.reset, lastValue := 0, lastWidth := 2,
    presenting := none, playingFlag := false, underrun := false, lastBegun := 0, head := none,
    counters := SlotCounters.zero, sclkEdge := false, trigPulse := false, strobePulse := false,
    present := presentLevel }

/-! ### Trigger unit (chapter 8) -/

/-- A trigger entry (R172). -/
structure TrigEntry where
  id : TrigId
  fireTime : Tick
  lines : Set8
  hop : Nat
  arrival : Option PortId
  pendPorts : Set4
  owedPorts : Set4
  deriving DecidableEq, Repr

inductive HistoryKind where
  | fired | firedByJudgement | stale | tombstone
  deriving DecidableEq, Repr

/-- A forward record (R174): the cell still to be sent, TRIGGER or CANCEL, with its fields, and the two sets. -/
structure ForwardRecord where
  cell : TriggerCell ⊕ CancelCell
  pendPorts : Set4
  owedPorts : Set4
  deriving DecidableEq, Repr

/-- A history record (R174). -/
structure HistoryRecord where
  id : TrigId
  kind : HistoryKind
  forward : Option ForwardRecord
  deriving DecidableEq, Repr

structure TriggerUnit where
  queue : List TrigEntry
  history : List HistoryRecord
  lateWindow : Nat
  defaultHop : Nat
  nextCount : Nat
  fired : Ctr
  lateFired : Ctr
  stale : Ctr
  dropped : Ctr
  duplicate : Ctr
  cancelled : Ctr
  cancelLate : Ctr
  abandoned : Ctr
  deriving DecidableEq, Repr

/-- R190, the column of the RESET pin. -/
def TriggerUnit.reset : TriggerUnit :=
  { queue := [], history := [], lateWindow := 1250, defaultHop := 8, nextCount := 0, fired := 0, lateFired := 0,
    stale := 0, dropped := 0, duplicate := 0, cancelled := 0, cancelLate := 0, abandoned := 0 }

/-! ### Management port (chapter 9) -/

/-- The reply statuses (R197). -/
inductive Status where
  | ok | staged | notReady | badFrame | badKind | badValue | busy | state | overlap | duplicate | slotBusy
  | noEntry | divider | queueFull | tooLate | notRoot
  deriving DecidableEq, Repr

/-- The notice kinds, in the order of their codes (R210). -/
inductive NoticeKind where
  | portInserted | portActive | portLost | portRemoved | portIsolated | portDraining | portQuiesced | portResumed
  | epochApplied | epochMismatch | servoState | markerFault | holdoverLimit | refChanged | step | windowEntry
  | windowExit | qualChange | originState | pulseFault | destAbandoned | streamStalled | streamResumed
  | sourceLost | windowApplied | streamClosed | triggerFired | triggerLate | triggerStale | triggerDropped
  | triggerCancelled | cancelLate | slotInserted | slotRemoved | clockDropped | sinkUnderrun
  deriving DecidableEq, Repr

/-- A notice record (R202, R210). Subject 0xFFFF is none. -/
structure Notice where
  kind : NoticeKind
  subject : BitVec 16
  detail : Int
  stamp : Tick
  extra : BitVec 32
  deriving DecidableEq, Repr

/-- The request in decode (R191). -/
structure InDecode where
  kind : Byte
  tag : Byte
  body : List Byte
  discarded : Bool
  overrun : Bool
  deriving DecidableEq, Repr

/-- What the owner of a request has answered: the status and the reply body (R194). -/
structure Answer where
  status : Status
  body : List Byte
  deriving DecidableEq, Repr

/-- A finished reply in the reply slot (R194). -/
structure Reply where
  kind : Byte
  tag : Byte
  status : Status
  discarded : Bool
  overrun : Bool
  body : List Byte
  deriving DecidableEq, Repr

structure Mgmt where
  inDecode : Option InDecode
  answer : Option Answer
  replySlot : Option Reply
  frame : Nat
  notices : List Notice
  masked : BitVec 36
  lostFlag : Bool
  lostCount : Nat
  decoded : BitVec 16
  discardedReplies : BitVec 16
  overruns : BitVec 16
  badFrames : BitVec 16
  unknownTrans : BitVec 16
  rootStrap : Bool
  portEnStrap : Bool
  sdo : List Byte
  deriving DecidableEq, Repr

/-- R200 and R206, the RESET pin, with the straps as sampled there (R198). -/
def Mgmt.reset (rootStrap portEnStrap : Bool) : Mgmt :=
  { inDecode := none, answer := none, replySlot := none, frame := 0, notices := [], masked := 0,
    lostFlag := false, lostCount := 0, decoded := 0, discardedReplies := 0, overruns := 0, badFrames := 0,
    unknownTrans := 0, rootStrap := rootStrap, portEnStrap := portEnStrap, sdo := [] }

/-! ### The machine -/

/-- The whole hub, and the queue of commands that wait for it (first in, first out). `buffer` is the sample buffer
as (address, byte) cells in the canonical form of `Memory.wf`. `inReset` is the level of the pin RESET: asserted (R200). -/
structure State where
  tb : Timebase
  win : WindowUnit
  org : Origin
  ports : Vector Port 4
  xmit : XmitSettings
  entries : Vector Entry 32
  buffer : List Host.Cell
  slots : Vector Slot 8
  trg : TriggerUnit
  mgmt : Mgmt
  inReset : Bool
  pending : List Instr
  deriving DecidableEq, Repr

/-- The machine right after RESET is released with ROOT_STRAP low (a member) and PORT_EN_STRAP high (ports start
enabled), and every sensed pin low (DESIGN CHOICE, log 5). A member raises no notice as it leaves reset (R200). -/
def State.reset : State :=
  { tb := Timebase.reset false, win := WindowUnit.reset, org := Origin.reset false,
    ports := Vector.replicate 4 (Port.reset true false false), xmit := XmitSettings.reset,
    entries := Vector.replicate 32 Entry.reset, buffer := [],
    slots := Vector.replicate 8 (Slot.reset false), trg := TriggerUnit.reset, mgmt := Mgmt.reset false true,
    inReset := false, pending := [] }

/-- Why the machine stops with a fault. The spec gives the part no such stop: a request it cannot carry out is
refused in its reply (R197), a damaged cell is counted (R78), and a fault of time moves the servo (R17). So there
is no constructor, and no command can answer `fault` (log 10). -/
inductive Fault where
  deriving DecidableEq, Repr

/-- Why a command has no meaning. -/
inductive Refusal where
  /-- Raised by an arm of `exec` for a command whose meaning is not written yet; safe (the machine stops where the
  hardware goes on). No arm of this model raises it. -/
  | notModelled (mnemonic : String)
  deriving DecidableEq, Repr

end Sys2Proof.Machine
end

