-- ==== Sys2Proof/Machine/Operands.lean ====
section
/-! DEFINITION. The arithmetic of the spec's conventions (00_scope.md) and the codes of its enumerations (R209 to
R211): every operand form the commands and the readouts use. -/
namespace Sys2Proof.Machine

/-! ### Signed rounding, clamps, half-range comparison -/

/-- round-shift(x, k): nearest, ties away from zero (00_scope.md, "Signed rounding by shift"). -/
def roundShift (x : Int) (k : Nat) : Int :=
  if k = 0 then x
  else x.sign * (((x.natAbs + 2 ^ (k - 1)) / 2 ^ k : Nat) : Int)

/-- Clamp (or saturate) to within `n` of 0 (00_scope.md). -/
def clampTo (n : Nat) (x : Int) : Int :=
  if x > (n : Int) then (n : Int) else if x < -(n : Int) then -(n : Int) else x

/-- A whole-tick time is in the future of `now` (00_scope.md, "Time"). -/
def inFuture (t now : Tick) : Bool :=
  decide (1 ≤ (t - now).toNat) && decide ((t - now).toNat ≤ 2 ^ 55 - 1)

/-- A sequence is ahead of another (00_scope.md, "Sequence numbers"). -/
def seqAhead (s r : Seq) : Bool :=
  decide (1 ≤ (s - r).toNat) && decide ((s - r).toNat ≤ 2 ^ 15 - 1)

/-- A sequence is behind another (00_scope.md, "Sequence numbers"). -/
def seqBehind (s r : Seq) : Bool :=
  decide (2 ^ 15 ≤ (s - r).toNat)

/-- Add 1 and stop at `top`. -/
def satInc (top n : Nat) : Nat := if n < top then n + 1 else n

/-! ### Sets as bit masks (10_formats.md) -/

/-- Whether bit `i` of a set is in it. -/
def inSet {n : Nat} (m : BitVec n) (i : Nat) : Bool := m.getLsbD i

/-- The set with bit `i` alone. -/
def bitOf (n i : Nat) : BitVec n := BitVec.ofNat n (2 ^ i)

def withBit {n : Nat} (m : BitVec n) (i : Nat) : BitVec n := m ||| bitOf n i

def withoutBit {n : Nat} (m : BitVec n) (i : Nat) : BitVec n := m &&& ~~~ bitOf n i

/-- The set of the ports for which `f` holds. -/
def portSet (f : PortId → Bool) : Set4 :=
  allPorts.foldl (fun m p => if f p then withBit m p.val else m) 0

/-- The set of the slots for which `f` holds. -/
def slotSet (f : SlotId → Bool) : Set8 :=
  allSlots.foldl (fun m k => if f k then withBit m k.val else m) 0

/-- How many ports a set holds. -/
def portCount (m : Set4) : Nat := (allPorts.filter (fun p => inSet m p.val)).length

/-! ### The grid of a divider, and what an advance passes (R2, R158, R162, R181) -/

/-- The least value at or above `x` that leaves remainder `phi` when divided by `m`. -/
def nextOnGrid (x m phi : Nat) : Nat := x + (phi + (m - x % m)) % m

/-- The value of the grid (divider `m`, phase `phi` below `m`) that lies above `v` up to and including `v'`,
counted forward modulo 2^56, when there is one (R2, R158). -/
def gridPassed (v v' : Tick) (m phi : Nat) : Option Tick :=
  if m = 0 ∨ v = v' then none
  else
    let t := nextOnGrid (v.toNat + 1) m phi
    if v.toNat < v'.toNat then
      if t ≤ v'.toNat then some (BitVec.ofNat 56 t) else none
    else if t < 2 ^ 56 then some (BitVec.ofNat 56 t)
    else if phi ≤ v'.toNat then some (BitVec.ofNat 56 phi) else none

/-- The presentation instant: the first whole tick at or after `x`, modulo 2^56, on the grid (R162). -/
def presentationInstant (x : Tick) (m phi : Nat) : Tick :=
  let t := nextOnGrid x.toNat m phi
  if t < 2 ^ 56 then BitVec.ofNat 56 t else BitVec.ofNat 56 phi

/-- Whether an advance from `v` to `v'` passes the fire time `t` (R181). -/
def tickPassed (v v' t : Tick) : Bool :=
  decide (1 ≤ (t - v).toNat) && decide ((t - v).toNat ≤ (v' - v).toNat)

/-! ### Bytes, most significant first (10_formats.md) -/

/-- `n` bytes of a number, most significant byte first. -/
def beBytes : Nat → Nat → List Byte
  | 0, _ => []
  | n + 1, v => BitVec.ofNat 8 (v / 256 ^ n) :: beBytes n v

/-- The number that bytes spell, most significant byte first. -/
def ofBytes (bs : List Byte) : Nat := bs.foldl (fun v b => v * 256 + b.toNat) 0

/-- `n` bytes of a signed number in two's complement. -/
def beSigned (n : Nat) (v : Int) : List Byte := beBytes n (v % (256 ^ n : Int)).toNat

/-- The signed number that bytes spell in two's complement. -/
def ofSigned (bs : List Byte) : Int :=
  let v := ofBytes bs
  if 2 * v < 256 ^ bs.length then (v : Int) else (v : Int) - (256 ^ bs.length : Nat)

def boolByte (b : Bool) : Byte := if b then 1 else 0

/-- A flags byte from its bits, bit 0 first. -/
def flagsByte (bs : List Bool) : Byte :=
  BitVec.ofNat 8 (bs.foldr (fun b v => (if b then 1 else 0) + 2 * v) 0)

/-- A one-byte field that names a port or is none (0xFF). -/
def portByte : Option PortId → Byte
  | some p => BitVec.ofNat 8 p.val
  | none => 0xFF

/-! ### Enumeration codes: the position in the lists of R209 and R211 -/

def Role.code : Role → Nat
  | .root => 0 | .member => 1

def ServoState.code : ServoState → Nat
  | .free => 0 | .acquire => 1 | .track => 2 | .holdover => 3 | .master => 4

def RefMode.code : RefMode → Nat
  | .auto => 0 | .manual => 1

def NoticeOption.code : NoticeOption → Nat
  | .all => 0 | .entryOnly => 1 | .none => 2

def NoticeOption.ofCode : Nat → Option NoticeOption
  | 0 => some .all | 1 => some .entryOnly | 2 => some .none | _ => Option.none

def QualMode.code : QualMode → Nat
  | .auto => 0 | .forceOn => 1 | .forceOff => 2

def QualMode.ofCode : Nat → Option QualMode
  | 0 => some .auto | 1 => some .forceOn | 2 => some .forceOff | _ => none

def QualName.code : QualName → Nat
  | .stamp => 0 | .grade => 1

def QualName.ofCode : Nat → Option QualName
  | 0 => some .stamp | 1 => some .grade | _ => none

def OriginState.code : OriginState → Nat
  | .idle => 0 | .armed => 1 | .syncing => 2 | .settling => 3 | .aligned => 4

def LinkState.code : LinkState → Nat
  | .disabled => 0 | .empty => 1 | .settling => 2 | .waiting => 3 | .training => 4 | .active => 5 | .lost => 6
  | .draining => 7 | .quiesced => 8 | .isolated => 9

def IsoCause.code : IsoCause → Nat
  | .none => 0 | .noSignal => 1 | .training => 2 | .delayRange => 3 | .selfLoop => 4 | .errors => 5

def StreamState.code : StreamState → Nat
  | .closed => 0 | .ready => 1 | .running => 2 | .stalled => 3 | .closing => 4

def StreamMode.code : StreamMode → Nat
  | .live => 0 | .lossless => 1

def StreamMode.ofCode : Nat → Option StreamMode
  | 0 => some .live | 1 => some .lossless | _ => none

def Presence.code : Presence → Nat
  | .empty => 0 | .settling => 1 | .present => 2

def StrobeMode.code : StrobeMode → Nat
  | .off => 0 | .epoch => 1 | .epochAndBlock => 2

def StrobeMode.ofCode : Nat → Option StrobeMode
  | 0 => some .off | 1 => some .epoch | 2 => some .epochAndBlock | _ => none

def HistoryKind.code : HistoryKind → Nat
  | .fired => 0 | .firedByJudgement => 1 | .stale => 2 | .tombstone => 3

/-- The status codes (R209). -/
def Status.code : Status → Nat
  | .ok => 0x00 | .staged => 0x01 | .notReady => 0x02 | .badFrame => 0x10 | .badKind => 0x11 | .badValue => 0x12
  | .busy => 0x13 | .state => 0x14 | .overlap => 0x15 | .duplicate => 0x16 | .slotBusy => 0x17 | .noEntry => 0x18
  | .divider => 0x19 | .queueFull => 0x1A | .tooLate => 0x1B | .notRoot => 0x1C

/-- The notice kind codes (R210). -/
def NoticeKind.code : NoticeKind → Nat
  | .portInserted => 0 | .portActive => 1 | .portLost => 2 | .portRemoved => 3 | .portIsolated => 4
  | .portDraining => 5 | .portQuiesced => 6 | .portResumed => 7 | .epochApplied => 8 | .epochMismatch => 9
  | .servoState => 10 | .markerFault => 11 | .holdoverLimit => 12 | .refChanged => 13 | .step => 14
  | .windowEntry => 15 | .windowExit => 16 | .qualChange => 17 | .originState => 18 | .pulseFault => 19
  | .destAbandoned => 20 | .streamStalled => 21 | .streamResumed => 22 | .sourceLost => 23 | .windowApplied => 24
  | .streamClosed => 25 | .triggerFired => 26 | .triggerLate => 27 | .triggerStale => 28 | .triggerDropped => 29
  | .triggerCancelled => 30 | .cancelLate => 31 | .slotInserted => 32 | .slotRemoved => 33 | .clockDropped => 34
  | .sinkUnderrun => 35

/-- The class of a kind code, 1 to 5 (chapter 9, "Notice kinds"). -/
def classOfCode (c : Nat) : Nat :=
  if c ≤ 7 then 1 else if c ≤ 19 then 2 else if c ≤ 25 then 3 else if c ≤ 31 then 4 else 5

/-- A stream source byte: S0 to S7 are 0x00 to 0x07, P0 to P3 are 0x10 to 0x13 (10_formats.md). -/
def Source.code : Source → Nat
  | .slot k => k.val
  | .port p => 0x10 + p.val

def portOf (n : Nat) : Option PortId := if h : n < 4 then some ⟨n, h⟩ else none

def winOf (n : Nat) : Option WinId := if h : n < 4 then some ⟨n, h⟩ else none

def slotOf (n : Nat) : Option SlotId := if h : n < 8 then some ⟨n, h⟩ else none

def entryOf (n : Nat) : Option EntryId := if h : n < 32 then some ⟨n, h⟩ else none

def Source.ofCode (n : Nat) : Option Source :=
  if n < 0x10 then (slotOf n).map .slot else (portOf (n - 0x10)).map .port

/-- A one-byte boolean: 0 or 1, nothing else (R209; log 14). -/
def boolOf : Nat → Option Bool
  | 0 => some false
  | 1 => some true
  | _ => none

/-- Whether an optional field, when present, lies within its range. -/
def optIn (lo hi : Nat) : Option Nat → Bool
  | none => true
  | some v => decide (lo ≤ v) && decide (v ≤ hi)

/-- Whether an optional signed field, when present, lies within `n` of 0. -/
def optWithin (n : Nat) : Option Int → Bool
  | none => true
  | some v => decide (-(n : Int) ≤ v) && decide (v ≤ (n : Int))

/-! ### Causes and kinds in notices (R211) -/

inductive ServoCause where
  | refChange | marker | excursion | fault | refLoss | autoRecover | realign | role
  deriving DecidableEq, Repr

def ServoCause.code : ServoCause → Nat
  | .refChange => 0 | .marker => 1 | .excursion => 2 | .fault => 3 | .refLoss => 4 | .autoRecover => 5
  | .realign => 6 | .role => 7

inductive FaultCause where
  | spacing | silence
  deriving DecidableEq, Repr

def FaultCause.code : FaultCause → Nat
  | .spacing => 0 | .silence => 1

inductive StepCause where
  | acquireMarker | originPulse | offset
  deriving DecidableEq, Repr

def StepCause.code : StepCause → Nat
  | .acquireMarker => 0 | .originPulse => 1 | .offset => 2

inductive QualCause where
  | evaluation | acquireEntry | freeEntry | fault | holdoverLimit | mode | config | origin | role
  deriving DecidableEq, Repr

def QualCause.code : QualCause → Nat
  | .evaluation => 0 | .acquireEntry => 1 | .freeEntry => 2 | .fault => 3 | .holdoverLimit => 4 | .mode => 5
  | .config => 6 | .origin => 7 | .role => 8

inductive OriginCause where
  | arm | startRise | startFall | settled | disarm | pulseFault | role
  deriving DecidableEq, Repr

def OriginCause.code : OriginCause → Nat
  | .arm => 0 | .startRise => 1 | .startFall => 2 | .settled => 3 | .disarm => 4 | .pulseFault => 5 | .role => 6

end Sys2Proof.Machine
end

