-- ==== Sys2Proof/Decode.lean ====
section
/-! DEFINITION. What bytes and words spell: the commands of request bodies (R209), and `decodeTableWord`. The rows of
spec/opcode_table.json carry no bits, so no word spells a command. -/
namespace Sys2Proof

open Machine

/-- The command that a table word spells. No row of the table gives bits. -/
def decodeTableWord (_nbits _w : Nat) : Option Instr := none

/-! ### The layout of request bodies (R209) -/

/-- The required fields of a body, by their sizes, and the bytes after them. -/
def takeFields : List Nat → List Byte → Option (List (List Byte) × List Byte)
  | [], bs => some ([], bs)
  | n :: ns, bs =>
    if bs.length < n then none else (takeFields ns (bs.drop n)).map fun r => (bs.take n :: r.1, r.2)

/-- The optional fields of a body, by their sizes, where bit `i` of the mask says that field `i` is present; every byte
must be used. -/
def takeOptional (mask : Nat) : Nat → List Nat → List Byte → Option (List (Option (List Byte)))
  | _, [], bs => if bs.isEmpty then some [] else none
  | i, n :: ns, bs =>
    if mask.testBit i then
      if bs.length < n then none else (takeOptional mask (i + 1) ns (bs.drop n)).map (some (bs.take n) :: ·)
    else (takeOptional mask (i + 1) ns bs).map (none :: ·)

/-- A body without optional fields. -/
def plainBody (sizes : List Nat) (body : List Byte) : Option (List (List Byte)) :=
  match takeFields sizes body with
  | some (fs, []) => some fs
  | _ => none

/-- A body with optional fields: the required fields, a mask of `maskBytes` bytes, and the optional fields. A mask bit
beyond them spoils the body. -/
def maskedBody (sizes : List Nat) (maskBytes : Nat) (opts : List Nat) (body : List Byte) :
    Option (List (List Byte) × List (Option (List Byte))) :=
  match takeFields sizes body with
  | none => none
  | some (fs, rest) =>
    if rest.length < maskBytes then none
    else
      let mask := ofBytes (rest.take maskBytes)
      if mask < 2 ^ opts.length then
        (takeOptional mask 0 opts (rest.drop maskBytes)).map fun os => (fs, os)
      else none

/-- An optional field as a number. -/
def natOpt (o : Option (List Byte)) : Option Nat := o.map ofBytes

/-- An optional field as a signed number. -/
def intOpt (o : Option (List Byte)) : Option Int := o.map ofSigned

def byteField (bs : List Byte) : BitVec 8 := BitVec.ofNat 8 (ofBytes bs)

/-- The pins whose levels a request reads at its decoding: the straps (R200) and Sn_VALID of each slot (R170). -/
structure Pins where
  rootStrap : Bool
  portEnStrap : Bool
  slotValid : Set8
  deriving DecidableEq, Repr

/-! ### The requests by their kind codes (R209): `none` when the body is ill laid

Four requests put another check before that of the body: `org.cfg` (R68), and `strm.open`, `strm.window` and `strm.dest`, which
name an entry first (R130, R149, R151). A body of theirs that does not fit the layout spells the command with a field outside
its range, so that the owner refuses it with BAD_VALUE at its own place in the order (R197; log 17). -/

/-- An `org.cfg` whose body does not fit the layout: a settle length of 0 is out of range (R55). -/
def unfitOrgCfg : OrgCfgReq := { settleLen := some 0 }

/-- A `strm.open` whose body names an entry and does not fit the layout: a rack id of 0 is out of range (R128). -/
def unfitOpen (entry : Byte) : StrmOpenReq :=
  { entry := entry.toNat, rackId := 0, mode := 0, source := 0, destPorts := 0, destSlots := 0, base := 0, len := 0
    payload := 0, width := 0, interval := 0 }

/-- A `strm.dest` whose body names an entry and does not fit the layout: ports above P3 are out of range (R151). -/
def unfitDest (entry : Byte) : StrmDestReq :=
  { entry := entry.toNat, addPorts := 0xFF, addSlots := 0, removePorts := 0, removeSlots := 0 }

def timebaseRequest (kind : Nat) (body : List Byte) : Option Instr :=
  match kind with
  | 0x10 =>
    match maskedBody [] 2 [1, 4, 4, 1, 1, 2, 2, 2, 1, 2] body with
    | some (_, [r, e, t, p, i, f, m, k, a, h]) =>
      some (.tbCfg
        { role := natOpt r, epoch := natOpt e, tstep := natOpt t, p := natOpt p, i := natOpt i, fmax := natOpt f
          smax := natOpt m, spacingTol := natOpt k, autoRecover := natOpt a, holdoverLimit := natOpt h })
    | _ => none
  | 0x11 =>
    match plainBody [1, 1] body with
    | some [m, p] => some (.tbRef (ofBytes m) (ofBytes p))
    | _ => none
  | 0x12 => if body.isEmpty then some .tbRealign else none
  | 0x13 => if body.isEmpty then some .tbNow else none
  | 0x14 => if body.isEmpty then some .tbStat else none
  | 0x15 =>
    match plainBody [8] body with
    | some [o] => some (.tbOffset (ofSigned o))
    | _ => none
  | _ => none

def windowRequest (kind : Nat) (body : List Byte) : Option Instr :=
  match kind with
  | 0x20 =>
    match maskedBody [1] 1 [4, 4, 1, 1] body with
    | some ([w], [l, u, i, n]) =>
      some (.winCfg { window := ofBytes w, lower := intOpt l, upper := intOpt u, inUse := natOpt i, notice := natOpt n })
    | _ => none
  | 0x21 =>
    match plainBody [2] body with
    | some [h] => some (.winHyst (ofBytes h))
    | _ => none
  | 0x22 =>
    match maskedBody [1] 1 [1, 1, 1, 1, 1] body with
    | some ([q], [c, x, e, d, o]) =>
      some (.qualCfg
        { qualifier := ofBytes q, coupled := natOpt c, clearOnExit := natOpt x, entryOnly := natOpt e
          dropOnFault := natOpt d, originRequired := natOpt o })
    | _ => none
  | 0x23 =>
    match plainBody [1, 1] body with
    | some [q, m] => some (.qualMode (ofBytes q) (ofBytes m))
    | _ => none
  | 0x24 => if body.isEmpty then some .winStat else none
  | _ => none

def originRequest (kind : Nat) (body : List Byte) : Option Instr :=
  match kind with
  | 0x30 =>
    match maskedBody [] 1 [7, 4, 2, 1, 1] body with
    | some (_, [v, p, t, l, o]) =>
      some (.orgCfg
        { value := natOpt v, period := natOpt p, tolerance := natOpt t, settleLen := natOpt l, originRequired := natOpt o })
    | _ => some (.orgCfg unfitOrgCfg)
  | 0x31 => if body.isEmpty then some .orgArm else none
  | 0x32 => if body.isEmpty then some .orgDisarm else none
  | 0x33 => if body.isEmpty then some .orgStat else none
  | _ => none

/-- `port.ctl` by its action: enable, disable, drain, resume, retrain (R100, R209). -/
def portAction (port : Nat) : Nat → Option Instr
  | 0 => some (.portCtlEnable port)
  | 1 => some (.portCtlDisable port)
  | 2 => some (.portCtlDrain port)
  | 3 => some (.portCtlResume port)
  | 4 => some (.portCtlRetrain port)
  | _ => none

def portRequest (kind : Nat) (body : List Byte) : Option Instr :=
  match kind with
  | 0x40 =>
    match maskedBody [1] 1 [1, 2, 2, 2, 1, 3, 3] body with
    | some ([p], [d, w, g, n, t, a, b]) =>
      some (.portCfg
        { port := ofBytes p, debounce := natOpt d, signalWait := natOpt w, grace := natOpt g, drainTimeout := natOpt n
          threshold := natOpt t, dmin := natOpt a, dmax := natOpt b })
    | _ => none
  | 0x41 =>
    match plainBody [1, 1] body with
    | some [p, a] => portAction (ofBytes p) (ofBytes a)
    | _ => none
  | 0x42 =>
    match plainBody [1] body with
    | some [p] => some (.portStat (ofBytes p))
    | _ => none
  | 0x48 =>
    match maskedBody [] 1 [1, 1] body with
    | some (_, [c, r]) => some (.xmitCfg (natOpt c) (natOpt r))
    | _ => none
  | 0x49 =>
    match plainBody [1] body with
    | some [p] => some (.xmitStat (ofBytes p))
    | _ => none
  | _ => none

def streamRequest (kind : Nat) (body : List Byte) : Option Instr :=
  match kind with
  | 0x50 =>
    match maskedBody [1, 2, 1, 1, 1, 1, 2, 2, 2, 1, 4] 1 [1, 1, 1, 1, 1, 3, 2] body with
    | some ([e, r, m, src, dp, ds, b, l, pay, w, i], [pr, g, a, h, d, lat, sq]) =>
      some (.strmOpen
        { entry := ofBytes e, rackId := ofBytes r, mode := ofBytes m, source := ofBytes src, destPorts := byteField dp
          destSlots := byteField ds, base := ofBytes b, len := ofBytes l, payload := ofBytes pay, width := ofBytes w
          interval := ofBytes i, priority := natOpt pr, gate := natOpt g, ageLimit := natOpt a, holdLimit := natOpt h
          drainLimit := natOpt d, latency := natOpt lat, initSeq := natOpt sq })
    | _ => body.head?.map fun e => .strmOpen (unfitOpen e)
  | 0x51 => (plainBody [1] body).map fun fs => .strmStart (ofBytes fs.flatten)
  | 0x52 => (plainBody [1] body).map fun fs => .strmStop (ofBytes fs.flatten)
  | 0x53 => (plainBody [1] body).map fun fs => .strmClose (ofBytes fs.flatten)
  | 0x54 =>
    match plainBody [1, 2, 2] body with
    | some [e, b, l] => some (.strmWindow (ofBytes e) (ofBytes b) (ofBytes l))
    | _ => body.head?.map fun e => .strmWindow e.toNat 0 0
  | 0x55 =>
    match plainBody [1, 1, 1, 1, 1] body with
    | some [e, ap, as, rp, rs] =>
      some (.strmDest
        { entry := ofBytes e, addPorts := byteField ap, addSlots := byteField as, removePorts := byteField rp
          removeSlots := byteField rs })
    | _ => body.head?.map fun e => .strmDest (unfitDest e)
  | 0x56 => (plainBody [1] body).map fun fs => .strmStat (ofBytes fs.flatten)
  | _ => none

def slotRequest (pins : Pins) (kind : Nat) (body : List Byte) : Option Instr :=
  match kind with
  | 0x60 =>
    match maskedBody [1] 1 [1, 1, 1] body with
    | some ([k], [d, m, t]) =>
      some (.slotCfg { slot := ofBytes k, debounce := natOpt d, strobe := natOpt m, subscription := t.map byteField })
    | _ => none
  | 0x61 =>
    match maskedBody [1] 1 [4, 2] body with
    | some ([k], [d, p]) => some (.slotClk { slot := ofBytes k, divider := natOpt d, phase := natOpt p })
    | _ => none
  | 0x62 =>
    match plainBody [1] body with
    | some [k] => some (.slotStat (ofBytes k) (inSet pins.slotValid (ofBytes k)))
    | _ => none
  | _ => none

def triggerRequest (kind : Nat) (body : List Byte) : Option Instr :=
  match kind with
  | 0x70 =>
    match maskedBody [7, 1] 1 [1] body with
    | some ([t, l], [h]) => some (.trgSched (ofBytes t) (byteField l) (natOpt h))
    | _ => none
  | 0x71 =>
    match maskedBody [2] 1 [1] body with
    | some ([i], [h]) => some (.trgCancel (ofBytes i) (natOpt h))
    | _ => none
  | 0x72 =>
    match maskedBody [] 1 [2, 1] body with
    | some (_, [w, h]) => some (.trgCfg (natOpt w) (natOpt h))
    | _ => none
  | 0x73 =>
    match plainBody [1, 1] body with
    | some [p, f] => some (.trgList (ofBytes p) (ofBytes f))
    | _ => none
  | _ => none

/-- `hub.reset` by its body: TRAFFIC or ALL (R200, R201, R209). -/
def resetRequest (pins : Pins) : Nat → Option Instr
  | 0 => some .hubResetTraffic
  | 1 => some (.hubResetAll pins.rootStrap pins.portEnStrap)
  | _ => none

def hubRequest (pins : Pins) (kind : Nat) (body : List Byte) : Option Instr :=
  match kind with
  | 0x01 => if body.isEmpty then some .hubId else none
  | 0x02 => (plainBody [1] body).map fun fs => .hubFrame (ofBytes fs.flatten)
  | 0x03 =>
    match plainBody [1] body with
    | some [v] => resetRequest pins (ofBytes v)
    | _ => none
  | 0x08 =>
    match plainBody [1, 5, 1, 5] body with
    | some [mc, mk, ec, ek] =>
      some (.ntcMask
        { maskClasses := byteField mc, maskKinds := BitVec.ofNat 40 (ofBytes mk), enableClasses := byteField ec
          enableKinds := BitVec.ofNat 40 (ofBytes ek) })
    | _ => none
  | 0x09 =>
    match maskedBody [] 1 [1] body with
    | some (_, [c]) => some (.ntcGet (natOpt c))
    | _ => none
  | _ => none

/-- The kind codes that name a request (R209). -/
def knownKinds : List Nat :=
  [0x01, 0x02, 0x03, 0x08, 0x09, 0x10, 0x11, 0x12, 0x13, 0x14, 0x15, 0x20, 0x21, 0x22, 0x23, 0x24, 0x30, 0x31, 0x32, 0x33,
   0x40, 0x41, 0x42, 0x48, 0x49, 0x50, 0x51, 0x52, 0x53, 0x54, 0x55, 0x56, 0x60, 0x61, 0x62, 0x70, 0x71, 0x72, 0x73]

/-- The request of a known kind, by its owner's range of codes; `none` when the body is ill laid. -/
def layoutRequest (pins : Pins) (kind : Nat) (body : List Byte) : Option Instr :=
  if kind < 0x10 then hubRequest pins kind body
  else if kind < 0x20 then timebaseRequest kind body
  else if kind < 0x30 then windowRequest kind body
  else if kind < 0x40 then originRequest kind body
  else if kind < 0x50 then portRequest kind body
  else if kind < 0x60 then streamRequest kind body
  else if kind < 0x70 then slotRequest pins kind body
  else triggerRequest kind body

/-- The command that a request frame's kind and body spell, or the status it is answered with: BAD_KIND for a kind that
names no request, BAD_VALUE for a body that does not fit its layout where the owner checks nothing before it (R194, R209). -/
def requestOf (pins : Pins) (kind : Byte) (body : List Byte) : Except Status Instr :=
  if knownKinds.contains kind.toNat then
    match layoutRequest pins kind.toNat body with
    | some i => .ok i
    | none => .error .badValue
  else .error .badKind

end Sys2Proof
end

