-- ==== Sys2Proof/Machine/Ops.lean ====
section
/-! DEFINITION. The named operations over the state that several blocks share: record updates, notices, the sample
buffer, the queues of cells to send, and the one-tick slot outputs. A block has no exception entry; raising a notice
is its way of reporting (R202). -/
namespace Sys2Proof.Machine

/-! ### Updates of one record -/

def State.updTb (f : Timebase → Timebase) (s : State) : State := { s with tb := f s.tb }
def State.updWin (f : WindowUnit → WindowUnit) (s : State) : State := { s with win := f s.win }
def State.updOrg (f : Origin → Origin) (s : State) : State := { s with org := f s.org }
def State.updTrg (f : TriggerUnit → TriggerUnit) (s : State) : State := { s with trg := f s.trg }
def State.updMgmt (f : Mgmt → Mgmt) (s : State) : State := { s with mgmt := f s.mgmt }
def State.updPort (p : PortId) (f : Port → Port) (s : State) : State :=
  { s with ports := s.ports.set p (f s.ports[p]) }
def State.updEntry (en : EntryId) (f : Entry → Entry) (s : State) : State :=
  { s with entries := s.entries.set en (f s.entries[en]) }
def State.updSlot (k : SlotId) (f : Slot → Slot) (s : State) : State :=
  { s with slots := s.slots.set k (f s.slots[k]) }

def State.port (s : State) (p : PortId) : Port := s.ports[p]
def State.entry (s : State) (en : EntryId) : Entry := s.entries[en]
def State.slot (s : State) (k : SlotId) : Slot := s.slots[k]

/-- The present reading in whole ticks ("now", 00_scope.md). -/
def State.now (s : State) : Tick := wholeTicks s.tb.reading

/-- Do one thing for each port, in port order. -/
def forPorts (f : PortId → State → State) (s : State) : State := allPorts.foldl (fun s p => f p s) s
/-- Do one thing for each slot, in slot order. -/
def forSlots (f : SlotId → State → State) (s : State) : State := allSlots.foldl (fun s k => f k s) s
/-- Do one thing for each stream entry, in entry order. -/
def forEntries (f : EntryId → State → State) (s : State) : State := allEntries.foldl (fun s en => f en s) s

/-! ### The level of RESET (R200) -/

/-- A command's effect, but none while RESET is asserted: every block is then held as it is (R192, R200). A pin's command
first records the pin's level, which no reset holds (log 5). -/
def unlessReset (s : State) (effect : State → State) : Host.Outcome State Fault Refusal :=
  .next (if s.inReset then s else effect s)

/-! ### Answers (R194, R197) -/

/-- What the owner of the request in decode answers (R194). -/
def State.reply (st : Status) (body : List Byte) (s : State) : State :=
  s.updMgmt fun m => { m with answer := some { status := st, body := body } }

/-- A refused request: the status, an empty body, and nothing else changed (R197). -/
def State.refuse (st : Status) (s : State) : State := s.reply st []

/-- An accepted request without a reply body (R197). -/
def State.accept (s : State) : State := s.reply .ok []

/-! ### Notices (R202) -/

/-- The code of "none" in a notice's subject (R210). -/
def noSubject : Nat := 0xFFFF
/-- The code of "none" in a notice's detail or extra word (R210). -/
def noneCode : Nat := 0xFF

def portCode : Option PortId → Nat
  | some p => p.val
  | none => noneCode

def portSubject : Option PortId → Nat
  | some p => p.val
  | none => noSubject

/-- Whether a notice kind is masked (R202). -/
def isMasked (k : NoticeKind) (m : Mgmt) : Bool := inSet m.masked k.code

/-- Offer a notice to the list (R202): a masked kind is not stored and not counted; a full list drops the notice,
sets the lost flag and raises the lost count; otherwise it is stored at the end, stamped with the whole ticks of the
reading. -/
def raiseNotice (k : NoticeKind) (subject : Nat) (detail extra : Int) (s : State) : State :=
  if isMasked k s.mgmt then s
  else if s.mgmt.notices.length < Config.noticeDepth then
    s.updMgmt fun m => { m with notices := m.notices ++
      [{ kind := k, subject := BitVec.ofNat 16 subject, detail := detail, stamp := s.now,
         extra := BitVec.ofInt 32 extra }] }
  else s.updMgmt fun m => { m with lostFlag := true, lostCount := satInc 65535 m.lostCount }

/-! ### The sample buffer (R125) -/

/-- The byte at an address; an unlisted one reads as `Config.bufferPowerUp` (log 6). -/
def Memory.read : List Host.Cell → Nat → Byte
  | [], _ => Config.bufferPowerUp
  | (k, b) :: rest, a => if k = a then b else Memory.read rest a

/-- Insert or replace one byte in an ordered list of cells, keeping the canonical form. -/
def Memory.insert : List Host.Cell → Nat → Byte → List Host.Cell
  | [], a, b => if b = Config.bufferPowerUp then [] else [(a, b)]
  | (k, c) :: rest, a, b =>
    if a < k then (if b = Config.bufferPowerUp then (k, c) :: rest else (a, b) :: (k, c) :: rest)
    else if a = k then (if b = Config.bufferPowerUp then rest else (a, b) :: rest)
    else (k, c) :: Memory.insert rest a b

/-- The size of the sample buffer in bytes (R125). -/
def Memory.size : Nat := Config.blockSlots * Config.slotBytes

/-- Write one byte. There is no byte at or above `Memory.size`, and no command names one (log 10). -/
def Memory.write (m : List Host.Cell) (a : Nat) (b : Byte) : List Host.Cell :=
  if a < Memory.size then Memory.insert m a b else m

/-- Write bytes at consecutive addresses. -/
def Memory.writeBytes : List Host.Cell → Nat → List Byte → List Host.Cell
  | m, _, [] => m
  | m, a, b :: bs => Memory.writeBytes (Memory.write m a b) (a + 1) bs

/-- Read `n` bytes from consecutive addresses. -/
def Memory.readBytes (m : List Host.Cell) (a n : Nat) : List Byte :=
  (List.range n).map fun i => Memory.read m (a + i)

/-- Every address of the list is above `lo`, the addresses rise, no entry equals what an unlisted address reads as,
and no address lies outside the buffer. -/
def Memory.wfFrom : Nat → List Host.Cell → Bool
  | _, [] => true
  | lo, (k, b) :: rest =>
    decide (lo ≤ k) && decide (k < Memory.size) && decide (b ≠ Config.bufferPowerUp) && Memory.wfFrom (k + 1) rest

/-- The canonical form of the sample buffer. -/
def Memory.wf (m : List Host.Cell) : Bool := Memory.wfFrom 0 m

/-- The address of the first byte of a block slot. -/
def slotAddress (slot : Nat) : Nat := slot * Config.slotBytes

/-! ### Queues of cells to send (R105, R106) -/

/-- Whether a control queue has room for one more cell (R106). -/
def ctrlRoom (q : Port) : Bool := decide (q.ctrlQ.length < Config.controlDepth)

/-- Put a cell at the back of a port's control queue. -/
def pushControl (p : PortId) (c : ControlCell) (s : State) : State :=
  s.updPort p fun q => { q with ctrlQ := q.ctrlQ ++ [c] }

/-- Take every cell for which `f` holds out of a port's control queue; the others close up in order (R106). -/
def withdraw (p : PortId) (f : ControlCell → Bool) (s : State) : State :=
  s.updPort p fun q => { q with ctrlQ := q.ctrlQ.filter fun c => !f c }

/-- Whether a timing queue has room (R105). -/
def timingRoom (q : Port) : Bool := decide (q.timingQ.length < Config.timingDepth)

/-- Offer a PROBE or ECHO to a timing queue (R105): it joins the back, or a full queue refuses it and counts. DESIGN CHOICE
(log 66): the timing-refused count wraps to 0 past 2^32 - 1, of which R105, R123 and R124 say nothing. -/
def offerTiming (p : PortId) (c : TimingCell) (s : State) : State :=
  if timingRoom (s.port p) then s.updPort p fun q => { q with timingQ := q.timingQ ++ [c] }
  else s.updPort p fun q => { q with timingRefused := q.timingRefused + 1 }

/-- Offer a MARKER (R5, R105): it takes the place of a MARKER already waiting; else it joins the back; else the full
queue refuses it and counts. A waiting MARKER carries nothing yet (R6), so taking its place changes no cell. DESIGN CHOICE
(log 66): the marker-replaced count wraps to 0 past 2^32 - 1, of which R105, R123 and R124 say nothing. -/
def offerMarker (p : PortId) (s : State) : State :=
  if (s.port p).timingQ.contains .marker then
    s.updPort p fun q => { q with markerReplaced := q.markerReplaced + 1 }
  else offerTiming p .marker s

/-- Empty a port's two queues and abandon its cell in flight (R86, R92, R97, R111). DESIGN CHOICE (log 66): the abandoned
count wraps to 0 past 2^32 - 1, of which R111, R123 and R124 say nothing. -/
def emptyQueues (p : PortId) (s : State) : State :=
  s.updPort p fun q =>
    { q with
      timingQ := [], ctrlQ := [], flight := none
      abandoned := if q.flight.isSome then q.abandoned + 1 else q.abandoned }

/-! ### Cells received (R78) -/

/-- What a cell does on the port it came in on: nothing when the port took no cells as the cell began to arrive (R78). The
state of the port as the command is taken judges the rest (log 16). -/
def whenBegun (a : ArrivalPort) (f : PortId → State → State) (s : State) : State := if a.begun then f a.port s else s

/-! ### Slot bindings and outputs (R128, R155, R166, R168) -/

/-- The entry for which a slot is source (R128). -/
def sourceEntry (s : State) (k : SlotId) : Option EntryId :=
  allEntries.find? fun en => (s.entry en).state ≠ .closed && (s.entry en).source == .slot k

/-- The entry for which a slot is a sink (R128). -/
def sinkEntry (s : State) (k : SlotId) : Option EntryId :=
  allEntries.find? fun en => (s.entry en).state ≠ .closed && inSet (s.entry en).destSlots k.val

/-- Pulse Sn_STROBE of a PRESENT slot; events of one oscillator tick give one pulse (R166). -/
def strobe (k : SlotId) (s : State) : State :=
  s.updSlot k fun q =>
    if q.presence = .present ∧ q.strobePulse = false then
      { q with strobePulse := true, counters := { q.counters with strobePulses := q.counters.strobePulses + 1 } }
    else q

/-- Tell a source slot that a block of its entry closed (R136, R166). -/
def strobeAtClose (src : Source) (s : State) : State :=
  match src with
  | .port _ => s
  | .slot k => if (s.slot k).cfg.strobe = .epochAndBlock then strobe k s else s

end Sys2Proof.Machine
end

