-- ==== Sys2Proof/Machine/Streams.lean ====
section
/-! DEFINITION. The stream table and its rings (chapter 6), and the credit a receiving entry advertises (R115). -/
namespace Sys2Proof.Machine

/-! ### Reading an entry -/

/-- An origin entry has a slot as its source (R128). -/
def isOrigin (e : Entry) : Bool :=
  match e.source with
  | .slot _ => true
  | .port _ => false

/-- Whether an entry has a block open, in its ring or outside it (R137). -/
def hasOpen (e : Entry) : Bool := e.outside.isSome || e.ring.any (·.isOpen)

/-- The ring is full when the blocks held equal the window length (R126). -/
def ringFull (e : Entry) : Bool := decide (e.len ≤ e.ring.length)

/-- The ports that can take a new block of an entry: live and ACTIVE (R129). -/
def takerPorts (s : State) (e : Entry) : Set4 :=
  portSet fun p => inSet e.destPorts p.val && !inSet e.abandonedPorts p.val && (s.port p).link == .active

/-- The sink slots that can take a new block of an entry: live, that is PRESENT (R129). -/
def takerSlots (s : State) (e : Entry) : Set8 :=
  slotSet fun k => inSet e.destSlots k.val && (s.slot k).presence == .present

/-- The oldest block of an entry that is pending for a port (R112). -/
def oldestPending (e : Entry) (p : PortId) : Option Block :=
  e.ring.find? fun b => !b.isOpen && inSet b.pendPorts p.val

/-- How many blocks of an entry are pending for a port. -/
def pendingCount (e : Entry) (p : PortId) : Nat :=
  (e.ring.filter fun b => !b.isOpen && inSet b.pendPorts p.val).length

/-- When hold is asserted: a LOSSLESS origin entry in RUNNING whose ring is full with no block open (R140). -/
def holdCond (e : Entry) : Bool :=
  e.state == .running && e.mode == .lossless && isOrigin e && ringFull e && !hasOpen e

/-- A receiving entry advertises credit while it is RUNNING and its source port is ACTIVE or DRAINING (R115). -/
def advertises (s : State) (e : Entry) : Bool :=
  match e.source with
  | .slot _ => false
  | .port p =>
    e.mode == .lossless && e.state == .running &&
      ((s.port p).link == .active || (s.port p).link == .draining)

/-- The computed limit: next expected + free blocks - 1, modulo 2^16 (R115). -/
def computedLimit (e : Entry) : Seq := e.nextExp + BitVec.ofNat 16 (e.len - e.ring.length) - 1

/-! ### Credit cells (R106, R115) -/

/-- Offer the entry's CREDIT to a port's control queue: merged into one already waiting, queued, or owed (R106). -/
def offerCredit (en : EntryId) (p : PortId) (s : State) : State :=
  if (s.port p).ctrlQ.contains (.credit en) then s
  else if ctrlRoom (s.port p) then
    (pushControl p (.credit en) s).updEntry en fun e => { e with owedCredit := false }
  else s.updEntry en fun e => { e with owedCredit := true }

/-- Offer a CREDIT if the entry advertises and its computed limit differs from the last advertised one (R115). -/
def creditTest (en : EntryId) (s : State) : State :=
  match (s.entry en).source with
  | .slot _ => s
  | .port p =>
    if advertises s (s.entry en) ∧ (s.entry en).lastAdv ≠ some (computedLimit (s.entry en)) then offerCredit en p s
    else s

/-- Offer a CREDIT if the entry advertises, whatever its computed limit (R115, R116). -/
def creditNow (en : EntryId) (s : State) : State :=
  match (s.entry en).source with
  | .slot _ => s
  | .port p => if advertises s (s.entry en) then offerCredit en p s else s

/-- Withdraw the entry's waiting CREDIT and clear its owed flag (R115). -/
def stopAdvertising (en : EntryId) (s : State) : State :=
  (forPorts (fun p => withdraw p (· == .credit en)) s).updEntry en fun e => { e with owedCredit := false }

/-- Withdraw the entry's waiting QUERY cells (R106). -/
def withdrawQueries (en : EntryId) (s : State) : State :=
  forPorts (fun p => withdraw p (· == .query en)) s

/-! ### Hold, stall, and going to CLOSED -/

/-- Assert or release hold as R140 gives; release zeroes the hold count. -/
def settleHold (e : Entry) : Entry :=
  if holdCond e then { e with hold := true } else { e with hold := false, holdCount := 0 }

/-- The return from STALLED when the blocks held are at or below half the window length (R141). -/
def stallReturn (en : EntryId) (s : State) : State :=
  let e := s.entry en
  if e.state = .stalled ∧ e.ring.length ≤ e.len / 2 then
    raiseNotice .streamResumed e.rackId 1 e.ring.length
      (s.updEntry en fun e => { e with state := .running, discOwed := true, hold := false, holdCount := 0 })
  else s

/-- End the presentations, at the sinks of an entry, of the blocks whose sequence satisfies `f` (R147, R163). -/
def endPresentations (en : EntryId) (f : Seq → Bool) (s : State) : State :=
  let e := s.entry en
  forSlots (fun k s => s.updSlot k fun q =>
    match q.presenting with
    | some (sq, _) => if inSet e.destSlots k.val && f sq then { q with presenting := none } else q
    | none => q) s

/-- What a slot loses when its sink binding ends: the presentation, the playing flag and the last judged head
(R155, R163, R164). -/
def unbindSink (k : SlotId) (s : State) : State :=
  s.updSlot k fun q => { q with presenting := none, playingFlag := false, head := none }

/-- Mark the cells in flight of an entry as stale (R109). -/
def staleFlights (en : EntryId) (s : State) : State :=
  forPorts (fun p s => s.updPort p fun q =>
    match q.flight with
    | some f => if f.entry = some en then { q with flight := some { f with stale := true } } else q
    | none => q) s

/-- The effects of going to CLOSED, but for the notice (R134). The fields and counters are kept. -/
def goClosed (en : EntryId) (s : State) : State :=
  let e := s.entry en
  let s := forSlots (fun k s => if inSet e.destSlots k.val then unbindSink k s else s) s
  let s := staleFlights en (withdrawQueries en (stopAdvertising en s))
  s.updEntry en fun e =>
    { e with
      state := .closed, destPorts := 0, destSlots := 0, abandonedPorts := 0
      credit := Vector.replicate 4 CreditRecord.fresh, owedCredit := false, outside := none, ring := []
      hold := false, holdCount := 0, awaitBoundary := false, waiting := [] }

/-- Go to CLOSED and raise STREAM_CLOSED: cause DRAINED (0) or FLUSHED (1), and the blocks flushed (R134). -/
def closeEntry (en : EntryId) (cause flushed : Nat) (s : State) : State :=
  raiseNotice .streamClosed (s.entry en).rackId cause flushed (goClosed en s)

/-- An entry in CLOSING whose ring is empty goes to CLOSED with cause DRAINED (R133). -/
def closeIfEmpty (en : EntryId) (s : State) : State :=
  if (s.entry en).state = .closing ∧ (s.entry en).ring = [] then closeEntry en 0 0 s else s

/-- What follows a change in the blocks held: hold (R140), the return from STALLED (R141), credit (R115), and the
empty-ring test of CLOSING (R133). -/
def heldChanged (en : EntryId) (s : State) : State :=
  closeIfEmpty en (creditTest en (stallReturn en (s.updEntry en settleHold)))

/-! ### Retirement and marks (R145) -/

/-- Whether a closed block has reached all its destinations. -/
def retires (b : Block) : Bool := !b.isOpen && b.pendPorts == 0 && b.pendSlots == 0

/-- Retire every closed block whose pending set is empty (R145). DESIGN CHOICE (log 57): when one event (a teardown, a removal,
an abandonment, a slot's departure) empties several pending sets, the blocks held change once, by all of them, so the return
from STALLED and its extra word see the final count (R141). -/
def sweep (en : EntryId) (s : State) : State :=
  let e := s.entry en
  let gone := (e.ring.filter retires).length
  if gone = 0 then s
  else heldChanged en (s.updEntry en fun e =>
    { e with
      ring := e.ring.filter fun b => !retires b
      counters := { e.counters with retired := e.counters.retired + BitVec.ofNat 32 gone } })

/-- A block without a port in its route and pending set. -/
def Block.dropPort (p : PortId) (b : Block) : Block :=
  { b with routePorts := withoutBit b.routePorts p.val, pendPorts := withoutBit b.pendPorts p.val }

/-- A block without a slot in its route and pending set. -/
def Block.dropSlot (k : SlotId) (b : Block) : Block :=
  { b with routeSlots := withoutBit b.routeSlots k.val, pendSlots := withoutBit b.pendSlots k.val }

/-- An entry with every mark for a port cleared, and the port taken out of the route of the open block (R129, R151). -/
def Entry.dropPort (p : PortId) (e : Entry) : Entry :=
  { e with ring := e.ring.map (Block.dropPort p), outside := e.outside.map (Block.dropPort p) }

/-- The same for a sink slot (R129, R151, R157). -/
def Entry.dropSlot (k : SlotId) (e : Entry) : Entry :=
  { e with ring := e.ring.map (Block.dropSlot k), outside := e.outside.map (Block.dropSlot k) }

/-- A port leaves an entry's blocks, and those whose pending sets empty retire (R129, R145). -/
def clearPort (en : EntryId) (p : PortId) (s : State) : State := sweep en (s.updEntry en (Entry.dropPort p))

/-- The same for a sink slot (R129, R157). -/
def clearSlot (en : EntryId) (k : SlotId) (s : State) : State := sweep en (s.updEntry en (Entry.dropSlot k))

/-- Clear the mark of one block, named by its sequence, for a port (R110). -/
def clearBlockPort (en : EntryId) (sq : Seq) (p : PortId) (s : State) : State :=
  sweep en (s.updEntry en fun e =>
    { e with ring := e.ring.map fun b => if b.seq = sq then { b with pendPorts := withoutBit b.pendPorts p.val } else b })

/-- Clear the mark of one block, named by its sequence, for a sink slot (R145). -/
def clearBlockSlot (en : EntryId) (sq : Seq) (k : SlotId) (s : State) : State :=
  sweep en (s.updEntry en fun e =>
    { e with ring := e.ring.map fun b => if b.seq = sq then { b with pendSlots := withoutBit b.pendSlots k.val } else b })

/-! ### Placement, windows, skips (R126, R143, R150) -/

/-- The first free slot of the window at or after the write position, searching forward and wrapping, and whether
taking it is a wrap (R126). -/
def freeSlot (e : Entry) : Option (Nat × Bool) :=
  let off := e.writePos - e.base
  match (List.range e.len).find? fun i => !e.ring.any fun b => b.slot == e.base + (off + i) % e.len with
  | none => none
  | some i => some (e.base + (off + i) % e.len, decide (e.len ≤ off + i) || (off + i) % e.len == e.len - 1)

/-- Give the blocks of a ring consecutive block slots from `base`. -/
def renumber : Nat → List Block → List Block
  | _, [] => []
  | base, b :: bs => { b with slot := base } :: renumber (base + 1) bs

/-- The payloads of a ring's blocks, read before any is moved (R150: "Their contents move with them"). -/
def ringContents (m : List Host.Cell) (bs : List Block) : List (List Byte) :=
  bs.map fun b => Memory.readBytes m (slotAddress b.slot) b.len

/-- Write payloads into consecutive block slots from `base`. -/
def writeContents : List Host.Cell → Nat → List (List Byte) → List Host.Cell
  | m, _, [] => m
  | m, base, c :: cs => writeContents (Memory.writeBytes m (slotAddress base) c) (base + 1) cs

/-- At a wrap, a staged window whose length holds the blocks comes into force (R150). -/
def applyWindow (en : EntryId) (s : State) : State :=
  let e := s.entry en
  match e.stagedWin with
  | none => s
  | some (base, len) =>
    if e.ring.length ≤ len then
      let s := { s with buffer := writeContents s.buffer base (ringContents s.buffer e.ring) }
      let s := s.updEntry en fun e =>
        { e with
          base := base, len := len, stagedWin := none, ring := renumber base e.ring
          writePos := if e.ring.length < len then base + e.ring.length else base }
      raiseNotice .windowApplied e.rackId base len s
    else s

/-- Place a block in the ring of an entry with a free slot, with the payload it brings, and apply a staged window if
that is a wrap (R126, R150). -/
def placeBlock (en : EntryId) (b : Block) (payload : List Byte) (s : State) : State :=
  let e := s.entry en
  match freeSlot e with
  | none => s
  | some (k, wrap) =>
    let s := s.updEntry en fun e =>
      { e with
        ring := e.ring ++ [{ b with slot := k }]
        writePos := if k + 1 < e.base + e.len then k + 1 else e.base }
    let s := { s with buffer := Memory.writeBytes s.buffer (slotAddress k) payload }
    if wrap then applyWindow en s else s

/-- A LIVE entry discards its oldest block to make room (R143); a sink presenting it ends that presentation
(R147). -/
def skipOldest (en : EntryId) (s : State) : State :=
  match (s.entry en).ring with
  | [] => s
  | b :: rest =>
    endPresentations en (· == b.seq) (s.updEntry en fun e =>
      { e with ring := rest, counters := { e.counters with skipped := e.counters.skipped + 1 } })

/-- Flush every block left in a ring (R133, R154). -/
def flushRing (en : EntryId) (s : State) : State :=
  let n := (s.entry en).ring.length
  endPresentations en (fun _ => true) (s.updEntry en fun e =>
    { e with ring := [], counters := { e.counters with flushed := e.counters.flushed + BitVec.ofNat 32 n } })

/-! ### Blocks at the origin (R135 to R142) -/

/-- The open block of a ring as it stands after its close: short unless full, its pending set its route (R136). -/
def Block.close (payload : Nat) (b : Block) : Block :=
  if b.isOpen then
    { b with isOpen := false, short := decide (b.len < payload), pendPorts := b.routePorts, pendSlots := b.routeSlots }
  else b

/-- Close the open block, if there is one (R136). One that is gated or unrouted is discarded (R137). -/
def closeBlock (en : EntryId) (s : State) : State :=
  let e := s.entry en
  if hasOpen e then
    let s := s.updEntry en fun e => { e with outside := none, ring := e.ring.map (Block.close e.payload) }
    (sweep en (strobeAtClose e.source s)).updEntry en settleHold
  else s

/-- Write one sample into the open block at the next sample position; the block closes if it is now full (R135). -/
def writeSample (en : EntryId) (data : BitVec 32) (s : State) : State :=
  let e := s.entry en
  match e.outside with
  | some b =>
    let s := s.updEntry en fun e => { e with outside := some { b with len := b.len + e.width } }
    if e.payload ≤ b.len + e.width then closeBlock en s else s
  | none =>
    match e.ring.find? (·.isOpen) with
    | none => s
    | some b =>
      let s := { s with buffer := Memory.writeBytes s.buffer (slotAddress b.slot + b.len) (beBytes e.width data.toNat) }
      let s := s.updEntry en fun e =>
        { e with ring := e.ring.map fun c => if c.isOpen then { c with len := c.len + e.width } else c }
      if e.payload ≤ b.len + e.width then closeBlock en s else s

/-- The trigger mark and extra-mark count a block opening now takes from the entry's waiting marks (R182). -/
def waitingMark (ids : List TrigId) : Option (TrigId × BitVec 16) × Nat :=
  match ids with
  | [] => (none, 0)
  | id :: rest => (some (id, 0), min 255 rest.length)

/-- Open a block at the sample instant `t`: its fields, the created count, and its fate, gated, unrouted or placed
(R137). -/
def openBlock (en : EntryId) (t : Tick) (s : State) : State :=
  let e := s.entry en
  let ports := takerPorts s e
  let slots := takerSlots s e
  let b : Block :=
    { seq := e.nextSeq, stamp := t, trusted := s.win.stamp.on, disc := e.discOwed, short := false,
      mark := (waitingMark e.waiting).1, extraMarks := (waitingMark e.waiting).2, len := 0, isOpen := true,
      routePorts := ports, routeSlots := slots, pendPorts := 0, pendSlots := 0, slot := 0, age := 0 }
  let s := s.updEntry en fun e =>
    { e with
      nextSeq := e.nextSeq + 1, waiting := []
      counters := { e.counters with created := e.counters.created + 1 } }
  if e.gate && !b.trusted then
    s.updEntry en fun e =>
      { e with outside := some b, counters := { e.counters with gated := e.counters.gated + 1 } }
  else if ports = 0 ∧ slots = 0 then
    s.updEntry en fun e =>
      { e with outside := some b, counters := { e.counters with unrouted := e.counters.unrouted + 1 } }
  else
    let s := if e.mode = .live ∧ ringFull e then skipOldest en s else s
    let s := s.updEntry en fun e => { e with discOwed := false }
    (placeBlock en b [] s).updEntry en settleHold

/-- What an origin entry does with a sample its source slot offers at the instant `t` (R135). -/
def offerSample (en : EntryId) (t : Tick) (valid : Bool) (data : BitVec 32) (s : State) : State :=
  let e := s.entry en
  match e.state with
  | .running =>
    if e.hold || holdCond e then s
    else if valid then
      if hasOpen e then writeSample en data s else writeSample en data (openBlock en t s)
    else closeBlock en s
  | .stalled =>
    if valid then s.updEntry en fun e => { e with counters := { e.counters with overrun := e.counters.overrun + 1 } }
    else s
  | _ => s

/-- What a step does to the stream table (R139). -/
def stepStreams (s : State) : State :=
  forEntries (fun en s =>
    let e := s.entry en
    if isOrigin e ∧ (e.state = .running ∨ e.state = .stalled) then
      (closeBlock en s).updEntry en fun e => { e with discOwed := true }
    else s) s

/-- Leave RUNNING or STALLED for READY: the open block closes short, hold is released, advertising and queries stop
(R132, R142). DESIGN CHOICE (log 54): discontinuity-owed is left alone here, as in the close from STALLED; R135 sets it "when
the entry leaves STALLED (R141)", and R141 has the return to RUNNING alone. -/
def toReady (en : EntryId) (s : State) : State :=
  let s := closeBlock en s
  let s := s.updEntry en fun e =>
    { e with state := .ready, hold := false, holdCount := 0, awaitBoundary := false }
  withdrawQueries en (stopAdvertising en s)

/-- Removal of the source slot (R142). -/
def sourceLost (k : SlotId) (s : State) : State :=
  match sourceEntry s k with
  | none => s
  | some en =>
    if (s.entry en).state = .running ∨ (s.entry en).state = .stalled then
      raiseNotice .sourceLost (s.entry en).rackId k.val 0 (toReady en s)
    else s

/-- A firing marks the blocks of every origin entry in RUNNING (R182). -/
def markBlock (id : TrigId) (width : Nat) (b : Block) : Block :=
  match b.mark with
  | none => { b with mark := some (id, BitVec.ofNat 16 (b.len / width)) }
  | some _ => { b with extraMarks := satInc 255 b.extraMarks }

def markStreams (id : TrigId) (s : State) : State :=
  forEntries (fun en s => s.updEntry en fun e =>
    if isOrigin e && e.state == .running then
      if hasOpen e then
        { e with
          outside := e.outside.map (markBlock id e.width)
          ring := e.ring.map fun b => if b.isOpen then markBlock id e.width b else b }
      else { e with waiting := e.waiting ++ [id] }
    else e) s

/-! ### Blocks at a receiving hub (R121, R144) -/

/-- Add 1 to the arrival port's unknown-stream count (R121). -/
def countUnknown (p : PortId) (s : State) : State :=
  s.updPort p fun q => { q with unknownStream := q.unknownStream + 1 }

/-- The entry that is not CLOSED and has a rack id (R114, R116, R121). -/
def entryOfRack (s : State) (rackId : Nat) : Option EntryId :=
  allEntries.find? fun en => (s.entry en).state ≠ .closed && (s.entry en).rackId == rackId

/-- Accept a block for which there is room (R144). -/
def acceptBlock (en : EntryId) (c : SampleCell) (s : State) : State :=
  let e := s.entry en
  let ports := takerPorts s e
  let slots := takerSlots s e
  let gap := if seqAhead c.seq e.nextExp then (c.seq - e.nextExp).toNat else 0
  let s := s.updEntry en fun e =>
    { e with
      nextExp := c.seq + 1
      counters := { e.counters with
        created := e.counters.created + 1, gaps := e.counters.gaps + BitVec.ofNat 32 gap } }
  let s :=
    if ports = 0 ∧ slots = 0 then
      s.updEntry en fun e => { e with counters := { e.counters with unrouted := e.counters.unrouted + 1 } }
    else
      let b : Block :=
        { seq := c.seq, stamp := c.stamp, trusted := c.trusted, disc := c.disc, short := c.short, mark := c.mark,
          extraMarks := c.extraMarks, len := c.payload.length, isOpen := false, routePorts := 0,
          routeSlots := 0, pendPorts := ports, pendSlots := slots, slot := 0, age := 0 }
      placeBlock en b c.payload s
  heldChanged en s

/-- What a receiving entry in RUNNING does with a SAMPLE whose payload fits it (R144). -/
def judgeSample (en : EntryId) (c : SampleCell) (s : State) : State :=
  let e := s.entry en
  if seqBehind c.seq e.nextExp then
    s.updEntry en fun e => { e with counters := { e.counters with duplicates := e.counters.duplicates + 1 } }
  else if ringFull e then
    match e.mode with
    | .lossless =>
      s.updEntry en fun e => { e with counters := { e.counters with overLimit := e.counters.overLimit + 1 } }
    | .live => acceptBlock en c (skipOldest en s)
  else acceptBlock en c s

/-- A SAMPLE handed to the stream table from its arrival port (R121, R144). -/
def receiveSample (p : PortId) (c : SampleCell) (s : State) : State :=
  match entryOfRack s c.rackId with
  | none => countUnknown p s
  | some en =>
    let e := s.entry en
    if e.source ≠ .port p then countUnknown p s
    else
      match e.state with
      | .ready =>
        s.updEntry en fun e => { e with counters := { e.counters with duplicates := e.counters.duplicates + 1 } }
      | .running =>
        if e.payload < c.payload.length ∨ c.payload.length % e.width ≠ 0 then countUnknown p s
        else judgeSample en c s
      | _ => s

/-! ### Credit records at a sending entry (R114, R117 to R119) -/

def setCredit (p : PortId) (f : CreditRecord → CreditRecord) (e : Entry) : Entry :=
  { e with credit := e.credit.set p (f e.credit[p]) }

/-- A CREDIT taken by its LOSSLESS sending entry (R114). -/
def receiveCredit (p : PortId) (c : CreditCell) (s : State) : State :=
  match entryOfRack s c.rackId with
  | none => s
  | some en =>
    let e := s.entry en
    if e.mode = .lossless ∧ inSet e.destPorts p.val ∧ !inSet e.abandonedPorts p.val then
      s.updEntry en (setCredit p fun r =>
        { limit := some c.limit
          timeouts := match r.limit with
            | none => 0
            | some old => if seqAhead c.limit old then 0 else r.timeouts
          queries := 0 })
    else s

/-- A QUERY answered by the advertising receiving entry of its rack id (R116). -/
def receiveQuery (p : PortId) (rackId : Nat) (s : State) : State :=
  match entryOfRack s rackId with
  | none => s
  | some en => if (s.entry en).source = .port p then creditNow en s else s

/-- A destination port is abandoned (R118). DESIGN CHOICE (log 67): DEST_ABANDONED comes last, where R118 lists it, so it
stands behind the STREAM_RESUMED or STREAM_CLOSED that the retirements of the same abandonment raise. -/
def abandonDest (en : EntryId) (p : PortId) (s : State) : State :=
  let e := s.entry en
  let n := pendingCount e p
  let s := s.updEntry en fun e => { e with abandonedPorts := withBit e.abandonedPorts p.val }
  let s := clearPort en p s
  let s := withdraw p (· == .query en) s
  let s := s.updEntry en (setCredit p fun _ => CreditRecord.fresh)
  raiseNotice .destAbandoned e.rackId p.val n s

/-- Whether the oldest block pending for a port lies beyond the credit limit (R112, R117). -/
def creditBlocked (r : CreditRecord) (b : Block) : Bool :=
  match r.limit with
  | none => true
  | some l => decide (2 ^ 15 ≤ (l - b.seq).toNat)

/-- The credit timeout of one entry and one destination port at a boundary (R117): the counts, an abandonment, or a
QUERY that falls due, which the caller places in the order of R107. -/
def judgeCredit (en : EntryId) (p : PortId) (s : State) : State × Bool :=
  let e := s.entry en
  if e.mode = .lossless ∧ (e.state = .running ∨ e.state = .stalled ∨ e.state = .closing) ∧ inSet e.destPorts p.val then
    match oldestPending e p with
    | none => (s.updEntry en (setCredit p fun r => { r with timeouts := 0 }), false)
    | some b =>
      if creditBlocked e.credit[p] b then
        if s.xmit.creditTimeout = 0 then (s, false)
        else
          let s := s.updEntry en (setCredit p fun r => { r with timeouts := satInc 255 r.timeouts })
          let r := (s.entry en).credit[p]
          if s.xmit.creditTimeout ≤ r.timeouts then
            if s.xmit.retryLimit ≠ 0 ∧ r.queries = s.xmit.retryLimit then (abandonDest en p s, false)
            else (s, true)
          else (s, false)
      else (s.updEntry en (setCredit p fun r => { r with timeouts := 0 }), false)
  else (s, false)

/-- Place a due QUERY: it joins the queue, or finds one waiting, and counts; without room nothing changes (R117). -/
def placeQuery (en : EntryId) (p : PortId) (s : State) : State :=
  let count := fun (s : State) => s.updEntry en (setCredit p fun r =>
    { r with queries := satInc 15 r.queries, timeouts := 0 })
  if (s.port p).ctrlQ.contains (.query en) then count s
  else if ctrlRoom (s.port p) then count (pushControl p (.query en) s)
  else s

/-! ### What the ports' events do to the stream table (R129) -/

/-- Entry of a port to ACTIVE: the receiving entries it sources offer a CREDIT (R85, R115). -/
def streamsPortActive (p : PortId) (s : State) : State :=
  forEntries (fun en s => if (s.entry en).source = .port p then creditNow en s else s) s

/-- Entry to DRAINING: the port leaves the route of every open block (R129). -/
def streamsPortDraining (p : PortId) (s : State) : State :=
  let drop := fun (b : Block) => if b.isOpen then { b with routePorts := withoutBit b.routePorts p.val } else b
  forEntries (fun en s => s.updEntry en fun e =>
    { e with ring := e.ring.map drop, outside := e.outside.map drop }) s

/-- A port becomes dormant: the credit record of every LOSSLESS entry that has it as destination starts again
(R119), and the receiving entries it sources stop advertising (R115). -/
def streamsPortDormant (p : PortId) (s : State) : State :=
  forEntries (fun en s =>
    let s := if (s.entry en).source = .port p then stopAdvertising en s else s
    s.updEntry en (setCredit p fun _ => CreditRecord.fresh)) s

/-- Every mark for a port is cleared, in every entry (R92, R97, R129). -/
def streamsClearPort (p : PortId) (s : State) : State := forEntries (fun en => clearPort en p) s

/-- Teardown of a port: dormant, its marks cleared, and the last advertised limits of the entries it sources set to
none (R97, R115). -/
def streamsTeardown (p : PortId) (s : State) : State :=
  let s := streamsPortDormant p s
  let s := forEntries (fun en s => s.updEntry en fun e =>
    if e.state ≠ .closed ∧ e.source = .port p then { e with lastAdv := none } else e) s
  streamsClearPort p s

/-! ### The stream table at an epoch boundary -/

/-- The open block's age, and its close at the block age limit (R138). -/
def ageBlock (en : EntryId) (s : State) : State :=
  let up := fun (b : Block) => if b.isOpen then { b with age := b.age + 1 } else b
  let s := s.updEntry en fun e => { e with ring := e.ring.map up, outside := e.outside.map up }
  let e := s.entry en
  let old := fun (b : Block) => b.isOpen && decide (e.ageLimit ≤ b.age)
  if e.ring.any old || (e.outside.map old).getD false then closeBlock en s else s

/-- The hold count under asserted hold, and the entry to STALLED (R140, R141). -/
def countHold (en : EntryId) (s : State) : State :=
  let e := s.entry en
  if e.hold then
    if e.holdLimit ≤ e.holdCount + 1 then
      raiseNotice .streamStalled e.rackId e.ring.length 0
        (s.updEntry en fun e => { e with state := .stalled, hold := false, holdCount := 0 })
    else s.updEntry en fun e => { e with holdCount := satInc 255 e.holdCount }
  else s

/-- The close drain count in CLOSING, and the flush at its limit (R133). -/
def countDrain (en : EntryId) (s : State) : State :=
  let e := s.entry en
  if e.state = .closing then
    let s := s.updEntry en fun e => { e with drainCount := satInc 255 e.drainCount }
    if e.drainLimit ≤ satInc 255 e.drainCount ∧ e.ring ≠ [] then
      closeEntry en 1 e.ring.length (flushRing en s)
    else s
  else s

/-- The boundary work of one entry, after the credit timeout: block age, hold, close drain, and the end of the wait
of a started origin (R131). DESIGN CHOICE (log 55): block age goes first, so a hold that a block closing here at its age
limit asserts is counted at this same boundary. -/
def streamBoundary (en : EntryId) (s : State) : State :=
  (countDrain en (countHold en (ageBlock en s))).updEntry en fun e => { e with awaitBoundary := false }

/-- An entry closed by `hub.reset` TRAFFIC: the open block closes short, the ring is flushed, no notice (R154). DEDUCED
(log 68): that close pulses and counts the strobe of a PRESENT source slot in EPOCH_AND_BLOCK mode like any other close (R136,
R166), though R171 has the reset keep the slot counters. -/
def trafficClose (en : EntryId) (s : State) : State :=
  if (s.entry en).state = .closed then s
  else goClosed en (flushRing en (closeBlock en s))

end Sys2Proof.Machine
end

