-- ==== Sys2Proof/Machine/Triggers.lean ====
section
/-! DEFINITION. The trigger unit: taking, flooding, firing and cancelling triggers (chapter 8). -/
namespace Sys2Proof.Machine

/-! ### Fire times (R173, R175) -/

/-- How far a reached fire time lies behind the reading, modulo 2^56 (R175). -/
def lateness (t now : Tick) : Nat := (now - t).toNat

/-- Whether an entry stands before another in the queue, counted from the reading `n` by the half-range rule (R173). A fire
time that the advance has passed and that has yet to fire lies behind `n` and stands first (DEDUCED, log 56). -/
def trigBefore (n : Tick) (x y : TrigEntry) : Bool :=
  decide ((x.fireTime - n).toInt < (y.fireTime - n).toInt) ||
    (x.fireTime == y.fireTime && decide (x.id.toNat < y.id.toNat))

/-- Insert an entry at the place its fire time and id give it (R173). -/
def insertTrig (n : Tick) (x : TrigEntry) : List TrigEntry → List TrigEntry
  | [] => [x]
  | y :: ys => if trigBefore n x y then x :: y :: ys else y :: insertTrig n x ys

def inQueue (u : TriggerUnit) (id : TrigId) : Bool := u.queue.any (·.id == id)

def inHistory (u : TriggerUnit) (id : TrigId) : Bool := u.history.any (·.id == id)

/-! ### History (R174) -/

/-- How many owed forwards a record gives up when it is dropped (R174). -/
def owedCount (r : HistoryRecord) : Nat := (r.forward.map fun f => portCount f.owedPorts).getD 0

/-- Add a record at the back; when 16 are held the oldest is dropped first and its owed forwards are given up. -/
def addHistory (r : HistoryRecord) (s : State) : State :=
  s.updTrg fun u =>
    match u.history with
    | [] => { u with history := [r] }
    | h :: rest =>
      if Config.historyDepth ≤ u.history.length then
        { u with history := rest ++ [r], abandoned := u.abandoned + BitVec.ofNat 32 (owedCount h) }
      else { u with history := u.history ++ [r] }

/-- A forward record, unless its pending-forward set is empty (R174). -/
def forwardRecord (cell : TriggerCell ⊕ CancelCell) (pend owed : Set4) : Option ForwardRecord :=
  if pend = 0 then none else some { cell := cell, pendPorts := pend, owedPorts := owed }

/-! ### Flooding (R179, R185) -/

/-- The ports a trigger or cancel is forwarded to: ACTIVE, other than the arrival port, when the hop limit is
above 0. -/
def forwardPorts (s : State) (hop : Nat) (arrival : Option PortId) : Set4 :=
  if hop = 0 then 0 else portSet fun p => (s.port p).link == .active && arrival != some p

/-- Offer one cell to the control queue of every port of a set; the answer's second part is the set of the ports
that had no room, for which the cell is owed (R179). DESIGN CHOICE (log 65): a cell of the same id that a dropped record has
left waiting (R174) does not hinder the offer, and the new cell joins the queue behind it. -/
def offerForwards (c : ControlCell) (ports : Set4) (s : State) : State × Set4 :=
  allPorts.foldl (fun (r : State × Set4) p =>
    if inSet ports p.val then
      if ctrlRoom (r.1.port p) then (pushControl p c r.1, r.2) else (r.1, withBit r.2 p.val)
    else r) (s, 0)

/-- Withdraw the waiting TRIGGER cells of an id from every control queue (R106), one that a dropped record has left waiting
among them (log 65). -/
def withdrawTriggers (id : TrigId) (s : State) : State :=
  forPorts (fun p => withdraw p fun c =>
    match c with
    | .trigger t => t.id == id
    | _ => false) s

/-! ### Firing (R168, R181 to R183) -/

/-- Pulse Sn_TRIG of every PRESENT slot whose subscription shares a line with the set (R168). -/
def pulseTriggers (lines : Set8) (s : State) : State :=
  forSlots (fun k s => s.updSlot k fun q =>
    if q.presence = .present ∧ q.cfg.subscription &&& lines ≠ 0 then
      { q with trigPulse := true, counters := { q.counters with trigPulses := q.counters.trigPulses + 1 } }
    else q) s

/-- The effects of a firing on slots and streams (R181, R182). -/
def fireEffects (id : TrigId) (lines : Set8) (s : State) : State := markStreams id (pulseTriggers lines s)

/-- Take an id out of the queue. -/
def dequeue (id : TrigId) (s : State) : State :=
  s.updTrg fun u => { u with queue := u.queue.filter fun x => x.id != id }

/-- A queued entry fires as the advance passes its fire time (R181). -/
def fireEntry (x : TrigEntry) (s : State) : State :=
  let s := fireEffects x.id x.lines s
  let s := withdrawTriggers x.id s
  let s := dequeue x.id s
  let s := s.updTrg fun u => { u with abandoned := u.abandoned + BitVec.ofNat 32 (portCount x.pendPorts) }
  let s := addHistory { id := x.id, kind := .fired, forward := none } s
  raiseNotice .triggerFired x.id.toNat x.lines.toNat 0 (s.updTrg fun u => { u with fired := u.fired + 1 })

/-- The notice and count of a firing by judgement (R183). -/
def judgementNotice (id : TrigId) (lines : Set8) (late : Nat) (s : State) : State :=
  if 1 ≤ late then
    raiseNotice .triggerLate id.toNat late lines.toNat (s.updTrg fun u => { u with lateFired := u.lateFired + 1 })
  else
    raiseNotice .triggerFired id.toNat lines.toNat 0 (s.updTrg fun u => { u with fired := u.fired + 1 })

/-- The notice and count of a stale trigger; the lateness is saturated at 2^32 - 1 (R176, R187). -/
def staleNotice (id : TrigId) (late : Nat) (arrival : Option PortId) (s : State) : State :=
  raiseNotice .triggerStale id.toNat (min late (2 ^ 32 - 1) : Nat) (portCode arrival)
    (s.updTrg fun u => { u with stale := u.stale + 1 })

/-! ### Taking a trigger (R176) -/

inductive TakeOutcome where
  | duplicate
  | stale (late : Nat)
  | fired (late : Nat)
  | full
  | queued
  deriving DecidableEq, Repr

/-- Take a trigger offered by `trg.sched` or by a TRIGGER cell (R176). -/
def takeTrigger (c : TriggerCell) (arrival : Option PortId) (s : State) : State × TakeOutcome :=
  let fwd : TriggerCell := { c with hop := c.hop - 1 }
  if inQueue s.trg c.id || inHistory s.trg c.id then
    (s.updTrg fun u => { u with duplicate := u.duplicate + 1 }, .duplicate)
  else if inFuture c.fireTime s.now then
    if Config.trigDepth ≤ s.trg.queue.length then (s, .full)
    else
      let ports := forwardPorts s c.hop arrival
      let r := offerForwards (.trigger fwd) ports s
      let x : TrigEntry :=
        { id := c.id, fireTime := c.fireTime, lines := c.lines, hop := c.hop, arrival := arrival,
          pendPorts := ports, owedPorts := r.2 }
      (r.1.updTrg fun u => { u with queue := insertTrig s.now x u.queue }, .queued)
  else
    let late := lateness c.fireTime s.now
    if s.trg.lateWindow < late then
      (staleNotice c.id late arrival (addHistory { id := c.id, kind := .stale, forward := none } s), .stale late)
    else
      let s := fireEffects c.id c.lines s
      let ports := forwardPorts s c.hop arrival
      let r := offerForwards (.trigger fwd) ports s
      let rec' : HistoryRecord :=
        { id := c.id, kind := .firedByJudgement, forward := forwardRecord (.inl fwd) ports r.2 }
      (judgementNotice c.id c.lines late (addHistory rec' r.1), .fired late)

/-! ### Cancel (R184, R185) -/

inductive CancelOutcome where
  | cancelled
  | alreadyCancelled
  | tooLate (kind : HistoryKind)
  | tombstone
  deriving DecidableEq, Repr

/-- Add the tombstone of a cancelled id and flood the CANCEL (R184, R185). -/
def addTombstone (c : CancelCell) (arrival : Option PortId) (s : State) : State :=
  let fwd : CancelCell := { c with hop := c.hop - 1 }
  let ports := forwardPorts s c.hop arrival
  let r := offerForwards (.cancel fwd) ports s
  addHistory { id := c.id, kind := .tombstone, forward := forwardRecord (.inr fwd) ports r.2 } r.1

/-- Judge a cancel for an id, from `trg.cancel` (no arrival port) or a CANCEL cell (R184). -/
def judgeCancel (c : CancelCell) (arrival : Option PortId) (s : State) : State × CancelOutcome :=
  if inQueue s.trg c.id then
    let s := dequeue c.id (withdrawTriggers c.id s)
    let s := addTombstone c arrival (s.updTrg fun u => { u with cancelled := u.cancelled + 1 })
    (raiseNotice .triggerCancelled c.id.toNat (portCode arrival) 0 s, .cancelled)
  else
    match s.trg.history.find? (·.id == c.id) with
    | some r =>
      if r.kind = .tombstone then (s, .alreadyCancelled)
      else
        match arrival with
        | none => (s, .tooLate r.kind)
        | some _ =>
          (raiseNotice .cancelLate c.id.toNat (portCode arrival) r.kind.code
            (s.updTrg fun u => { u with cancelLate := u.cancelLate + 1 }), .tooLate r.kind)
    | none => (addTombstone c arrival s, .tombstone)

/-! ### Steps (R187) -/

/-- A step judges one queued entry against the stepped reading (R187). -/
def rejudge (x : TrigEntry) (s : State) : State :=
  if inFuture x.fireTime s.now then s
  else
    let late := lateness x.fireTime s.now
    if s.trg.lateWindow < late then
      let s := withdrawTriggers x.id (dequeue x.id s)
      let s := addHistory { id := x.id, kind := .stale, forward := none } s
      let s := s.updTrg fun u => { u with abandoned := u.abandoned + BitVec.ofNat 32 (portCount x.pendPorts) }
      staleNotice x.id late x.arrival s
    else
      let s := fireEffects x.id x.lines (dequeue x.id s)
      let fwd : TriggerCell := { id := x.id, fireTime := x.fireTime, lines := x.lines, hop := x.hop - 1 }
      let s := addHistory
        { id := x.id, kind := .firedByJudgement, forward := forwardRecord (.inl fwd) x.pendPorts x.owedPorts } s
      judgementNotice x.id x.lines late s

/-- The re-examination of the queue at a step, in queue order (R187). -/
def stepTriggers (s : State) : State := s.trg.queue.foldl (fun s x => rejudge x s) s

/-! ### Departures, boundaries, ports (R179, R180) -/

/-- Take a port out of a forward record; a record whose set empties is removed (R174). -/
def ForwardRecord.dropPort (p : PortId) (f : ForwardRecord) : Option ForwardRecord :=
  forwardRecord f.cell (withoutBit f.pendPorts p.val) (withoutBit f.owedPorts p.val)

/-- Take a port out of the forward record of a history record. -/
def HistoryRecord.dropPort (p : PortId) (r : HistoryRecord) : HistoryRecord :=
  { r with forward := r.forward.bind (ForwardRecord.dropPort p) }

/-- Take a port out of an entry's pending-forward and owed sets. -/
def TrigEntry.dropPort (p : PortId) (x : TrigEntry) : TrigEntry :=
  { x with pendPorts := withoutBit x.pendPorts p.val, owedPorts := withoutBit x.owedPorts p.val }

/-- The departure of a TRIGGER or CANCEL: the port leaves the pending-forward set of the entry or record that holds
the id (R109, R179, R185). -/
def reportDeparture (id : TrigId) (p : PortId) (s : State) : State :=
  s.updTrg fun u =>
    { u with
      queue := u.queue.map fun x => if x.id = id then x.dropPort p else x
      history := u.history.map fun r => if r.id = id then r.dropPort p else r }

/-- How many pending forwards the unit holds for a port. -/
def forwardsTo (u : TriggerUnit) (p : PortId) : Nat :=
  (u.queue.filter fun x => inSet x.pendPorts p.val).length +
    (u.history.filter fun r => (r.forward.map fun f => inSet f.pendPorts p.val).getD false).length

/-- A drain timeout or teardown: the port leaves every set, and each forward lost is counted (R180). -/
def dropForwards (p : PortId) (s : State) : State :=
  s.updTrg fun u =>
    { u with
      queue := u.queue.map (TrigEntry.dropPort p)
      history := u.history.map (HistoryRecord.dropPort p)
      abandoned := u.abandoned + BitVec.ofNat 32 (forwardsTo u p) }

/-- The control cell of a forward. -/
def forwardCell : TriggerCell ⊕ CancelCell → ControlCell
  | .inl c => .trigger c
  | .inr c => .cancel c

/-- Place the TRIGGER cells owed to a port, in queue order, while its control queue has room (R180). -/
def placeOwedQueue (p : PortId) (s : State) : State :=
  s.trg.queue.foldl (fun s x =>
    if inSet x.owedPorts p.val && ctrlRoom (s.port p) then
      (pushControl p (.trigger { id := x.id, fireTime := x.fireTime, lines := x.lines, hop := x.hop - 1 }) s).updTrg
        fun u =>
          { u with
            queue := u.queue.map fun y => if y.id = x.id then { y with owedPorts := withoutBit y.owedPorts p.val } else y }
    else s) s

/-- Then the cells of the history records owed to it, oldest record first (R180). -/
def placeOwedHistory (p : PortId) (s : State) : State :=
  s.trg.history.foldl (fun s r =>
    match r.forward with
    | none => s
    | some f =>
      if inSet f.owedPorts p.val && ctrlRoom (s.port p) then
        (pushControl p (forwardCell f.cell) s).updTrg fun u =>
          { u with
            history := u.history.map fun y =>
              if y.id = r.id then
                { y with forward := y.forward.map fun g => { g with owedPorts := withoutBit g.owedPorts p.val } }
              else y }
      else s) s

end Sys2Proof.Machine
end

