-- ==== Sys2Proof/Machine/Flags.lean ====
section
/-! DEFINITION. The outputs and flags that are read off other state: ATTN, the removal indicators, the lines of a slot,
and the flags of a reply frame. -/
namespace Sys2Proof.Machine

/-- ATTN is asserted while the notice list holds at least one notice (R203). -/
def State.attn (s : State) : Bool := !s.mgmt.notices.isEmpty

/-- Pn_RMV is lit in QUIESCED and dark in every other link state (R70, R93). -/
def State.removable (s : State) (p : PortId) : Bool := (s.port p).link == .quiesced

/-- Sn_TGOOD follows the grade qualifier while the slot is PRESENT, and is low otherwise (R155, R167). -/
def State.timingGood (s : State) (k : SlotId) : Bool := (s.slot k).presence == .present && s.win.grade.on

/-- Sn_HOLD follows the hold of the entry the slot sources while the slot is PRESENT, and is low otherwise (R161). -/
def State.holdLine (s : State) (k : SlotId) : Bool :=
  (s.slot k).presence == .present &&
    match sourceEntry s k with
    | some en => (s.entry en).hold
    | none => false

/-- Whether the hub is the root (R9). -/
def isRoot (s : State) : Bool := s.tb.role == .root

/-- The origin-aligned flag seen: on the root the origin unit's flag; on a member the flag in the reference port's
last-marker record, clear without a reference (R6, R32, R69). -/
def alignedSeen (s : State) : Bool :=
  match s.tb.role with
  | .root => s.org.aligned
  | .member =>
    match s.tb.ref with
    | none => false
    | some p => ((s.port p).marker.map (·.aligned)).getD false

/-- The flags byte of a reply frame: notices waiting and lost as at the read, previous-discarded and overrun as in
the reply (R196, R208). -/
def replyFlags (m : Mgmt) (discarded overrun : Bool) : Byte :=
  flagsByte [!m.notices.isEmpty, m.lostFlag, discarded, overrun]

end Sys2Proof.Machine
end

