-- ==== Sys2Proof/Machine/Windows.lean ====
section
/-! DEFINITION. The phase window unit: evaluations, window notices, qualifiers, and the requests over them
(chapter 2). -/
namespace Sys2Proof.Machine

/-! ### Bands and limits (R38) -/

/-- Whether a band is held and holds an error value (R38). -/
def bandHolds (h : Nat) (e : Int) : Option Int → Bool
  | none => false
  | some l => decide ((e - l).natAbs ≤ h)

/-- A limit a band may be centred on: its value and whether the change of error crossed it. -/
abbrev Limit := Int × Bool

/-- The two limits of an interval, with whether each is crossed between `x` and `y` (R38). -/
def limitsOf (x y : Int) (iv : Int × Int) : List Limit :=
  [(iv.1, decide (x < iv.1) != decide (y < iv.1)), (iv.2, decide (iv.2 < x) != decide (iv.2 < y))]

/-- The limit nearest to `e`; ties go to the smaller (R38). -/
def nearest (e : Int) : List Int → Option Int
  | [] => none
  | l :: ls =>
    match nearest e ls with
    | none => some l
    | some m =>
      if (l - e).natAbs < (m - e).natAbs ∨ ((l - e).natAbs = (m - e).natAbs ∧ l ≤ m) then some l else some m

/-- The centre of a band taken after the change from the previous error to `e`, among the limits of a list of
intervals (R38). -/
def bandCentre (prevValid : Bool) (prevE e : Int) (ivs : List (Int × Int)) : Option Int :=
  let ls := ivs.flatMap (limitsOf prevE e)
  let crossed := ls.filter (·.2)
  if prevValid ∧ crossed ≠ [] then nearest e (crossed.map (·.1)) else nearest e (ls.map (·.1))

/-! ### Windows (R34, R35, R39) -/

/-- A window whose limits may hold an error: in use, and its lower limit not above its upper (R34, R39, R41). -/
def WinSetting.usable (w : WinSetting) : Bool := w.inUse && decide (w.lower ≤ w.upper)

/-- Stage 1 for one window (R35): the pending setting comes into force; a window that cannot be judged is
cleared. -/
def Window.settle (w : Window) : Window :=
  let w := { w with inForce := w.staged.getD w.inForce, staged := none }
  if w.inForce.usable then w else { w with inside := false, reported := false, band := none }

/-- Stage 2 for one window (R35). -/
def Window.mark (e : Int) (w : Window) : Window :=
  if w.inForce.inUse then { w with inside := decide (w.inForce.lower ≤ e) && decide (e ≤ w.inForce.upper) } else w

/-- Stage 3 for one window (R39): the window after the judgement, and the notice it offers. -/
def Window.judge (h : Nat) (prevValid : Bool) (prevE e : Int) (w : Window) : Window × Option NoticeKind :=
  if !w.inForce.usable then (w, none)
  else if bandHolds h e w.band then (w, none)
  else if w.inside = w.reported then ({ w with band := none }, none)
  else
    ({ w with
       reported := w.inside
       band := bandCentre prevValid prevE e [(w.inForce.lower, w.inForce.upper)] },
     if w.inside then (if prevValid && w.inForce.notice != .none then some .windowEntry else none)
     else (if w.inForce.notice = .all then some .windowExit else none))

/-! ### Regions (R41) -/

/-- Insert an interval by its lower end. -/
def insertInterval (iv : Int × Int) : List (Int × Int) → List (Int × Int)
  | [] => [iv]
  | jv :: rest => if iv.1 ≤ jv.1 then iv :: jv :: rest else jv :: insertInterval iv rest

/-- Merge the interval in hand with the ordered intervals that overlap it or are adjacent to it (R41). -/
def mergeIntervals : Int × Int → List (Int × Int) → List (Int × Int)
  | iv, [] => [iv]
  | iv, jv :: rest =>
    if jv.1 ≤ iv.2 + 1 then mergeIntervals (iv.1, max iv.2 jv.2) rest else iv :: mergeIntervals jv rest

/-- The region of a coupled set: its merged intervals, in ascending order (R41). -/
def region (u : WindowUnit) (coupled : Set4) : List (Int × Int) :=
  let ivs := (allWins.filter fun w => inSet coupled w.val && u.wins[w].inForce.usable).map fun w =>
    (u.wins[w].inForce.lower, u.wins[w].inForce.upper)
  match ivs.foldr insertInterval [] with
  | [] => []
  | iv :: rest => mergeIntervals iv rest

/-- Whether an error lies inside a region (R41). -/
def inRegion (ivs : List (Int × Int)) (e : Int) : Bool := ivs.any fun iv => decide (iv.1 ≤ e) && decide (e ≤ iv.2)

/-! ### Qualifiers (R42, R43, R47) -/

/-- Whether an AUTO qualifier may switch to the desired state (R43). -/
def Qualifier.maySwitch (ivs : List (Int × Int)) (prevValid : Bool) (prevE : Int) (desired : Bool) (q : Qualifier) :
    Bool :=
  if desired then !q.entryOnly || (prevValid && !inRegion ivs prevE) else q.clearOnExit

/-- Stage 4 for one qualifier (R42): the qualifier after the judgement, and whether it switched. -/
def Qualifier.judge (h : Nat) (ivs : List (Int × Int)) (prevValid : Bool) (prevE e : Int) (q : Qualifier) :
    Qualifier × Bool :=
  if q.mode ≠ .auto then (q, false)
  else if bandHolds h e q.band then (q, false)
  else if inRegion ivs e = q.on then ({ q with band := none }, false)
  else if q.maySwitch ivs prevValid prevE (inRegion ivs e) then
    ({ q with on := inRegion ivs e, band := bandCentre prevValid prevE e ivs }, true)
  else ({ q with band := none }, false)

def WindowUnit.qual (u : WindowUnit) : QualName → Qualifier
  | .stamp => u.stamp
  | .grade => u.grade

def State.updQual (n : QualName) (f : Qualifier → Qualifier) (s : State) : State :=
  s.updWin fun u =>
    match n with
    | .stamp => { u with stamp := f u.stamp }
    | .grade => { u with grade := f u.grade }

/-- QUAL_CHANGE with the qualifier's present state (R47, R211): the detail holds the state in its low byte and the
cause in the byte above. -/
def qualNotice (n : QualName) (cause : QualCause) (extra : Int) (s : State) : State :=
  raiseNotice .qualChange n.code (((if (s.win.qual n).on then 1 else 0) + 256 * cause.code : Nat) : Int) extra s

/-- Turn a qualifier on or off; a change raises QUAL_CHANGE (R47), and the band stays (log 40). -/
def setQual (n : QualName) (on : Bool) (cause : QualCause) (s : State) : State :=
  if (s.win.qual n).on = on then s else qualNotice n cause 0 (s.updQual n fun q => { q with on := on })

/-- Turn an AUTO qualifier off and release its band; one already off is unchanged (R44). -/
def dropQual (cause : QualCause) (n : QualName) (s : State) : State :=
  let q := s.win.qual n
  if q.mode = .auto ∧ q.on then qualNotice n cause 0 (s.updQual n fun q => { q with on := false, band := none }) else s

/-- The state the root rule gives a qualifier (R45). -/
def rootState (s : State) (q : Qualifier) : Bool := !(q.originRequired && !s.org.aligned)

/-- The root rule, for one qualifier (R45). -/
def rootRule (cause : QualCause) (n : QualName) (s : State) : State :=
  if s.tb.role = .root ∧ (s.win.qual n).mode = .auto then setQual n (rootState s (s.win.qual n)) cause s else s

/-! ### Evaluation (R35) -/

/-- Stage 3 for one window: its judgement and its notice, with e as the detail. -/
def judgeWindow (prevValid : Bool) (prevE e : Int) (w : WinId) (s : State) : State :=
  let r := s.win.wins[w].judge s.win.hyst prevValid prevE e
  let s := s.updWin fun u => { u with wins := u.wins.set w r.1 }
  match r.2 with
  | none => s
  | some k => raiseNotice k w.val e 0 s

/-- Stage 4 for one qualifier. -/
def judgeQual (prevValid : Bool) (prevE e : Int) (n : QualName) (s : State) : State :=
  let q := s.win.qual n
  let r := q.judge s.win.hyst (region s.win q.coupled) prevValid prevE e
  let s := s.updQual n fun _ => r.1
  if r.2 then qualNotice n .evaluation e s else s

/-- One evaluation, for a record passed by the servo (R35). DEDUCED (log 12): R35 judges "window by window", and the notices
of several windows are taken from W0 to W3. -/
def evaluate (e : Int) (servo : ServoState) (stepped : Bool) (s : State) : State :=
  let pv := s.win.prevValid
  let pe := s.win.prevE
  let s := s.updWin fun u =>
    { u with wins := u.wins.map fun w => w.settle.mark e, lastEval := some { e := e, servo := servo, stepped := stepped } }
  let s := allWins.foldl (fun s w => judgeWindow pv pe e w s) s
  let s := if servo = .track then judgeQual pv pe e .grade (judgeQual pv pe e .stamp s) else s
  s.updWin fun u => { u with prevE := e, prevValid := !stepped }

/-! ### Announcements (R36, R37, R44) -/

/-- Release every window's notice band. -/
def releaseBands (u : WindowUnit) : WindowUnit :=
  { u with wins := u.wins.map fun w => { w with band := none } }

/-- Clear the previous-error-valid flag, and with it every window's notice band (R36). -/
def clearPrevValid (s : State) : State := s.updWin fun u => { releaseBands u with prevValid := false }

/-- Turn off what R44 turns off, STAMP then GRADE. -/
def dropQuals (cause : QualCause) (s : State) : State := dropQual cause .grade (dropQual cause .stamp s)

/-- The fault entry: entry to HOLDOVER, whatever its cause (R9, R36, R44). -/
def windowsFault (s : State) : State :=
  let drop := fun n (s : State) => if (s.win.qual n).dropOnFault then dropQual .fault n s else s
  let s := drop .grade (drop .stamp (clearPrevValid s))
  s.updWin fun u =>
    { u with limitFlag := false, stamp := { u.stamp with band := none }, grade := { u.grade with band := none } }

/-- The announcement of a change of servo state from `old` to `new` (R9, R40, R44). -/
def windowsServo (old new : ServoState) (s : State) : State :=
  let s := if old = .holdover ∧ new ≠ .holdover then s.updWin fun u => { u with limitFlag := false } else s
  match new with
  | .acquire => dropQuals .acquireEntry s
  | .free => dropQuals .freeEntry s
  | .holdover => windowsFault s
  | .track => s
  | .master => s

/-- The announcement of the holdover limit (R44). -/
def windowsLimit (s : State) : State := dropQuals .holdoverLimit (s.updWin fun u => { u with limitFlag := true })

/-- The announcement that the hub has become the root: the windows (R37), then the root rule (R45). -/
def windowsRoot (s : State) : State :=
  let s := (clearPrevValid s).updWin fun u =>
    { u with wins := u.wins.map fun w =>
        { w with inForce := w.staged.getD w.inForce, staged := none, inside := false, reported := false, band := none } }
  rootRule .role .grade (rootRule .role .stamp s)

/-- The announcement of a change of the origin-aligned flag (R45, R66). -/
def windowsOrigin (s : State) : State := rootRule .origin .grade (rootRule .origin .stamp s)

/-! ### Requests (R50 to R52) -/

/-- The settings a `win.cfg` gives its window: each absent field keeps the pending value, or the one in force. -/
def winCfgSettings (r : WinCfgReq) (w : Window) : Option WinSetting :=
  let base := w.staged.getD w.inForce
  let inUse := match r.inUse with
    | none => some base.inUse
    | some v => boolOf v
  let notice := match r.notice with
    | none => some base.notice
    | some v => NoticeOption.ofCode v
  if optWithin Config.errorMax r.lower && optWithin Config.errorMax r.upper then
    match inUse, notice with
    | some u, some n =>
      some { lower := r.lower.getD base.lower, upper := r.upper.getD base.upper, inUse := u, notice := n }
    | _, _ => none
  else none

/-- The bands an accepted `win.cfg` releases: every notice band, with previous-error-valid, and the band of each
qualifier coupled to the window (R50). -/
def winCfgRelease (w : WinId) (s : State) : State :=
  (clearPrevValid s).updWin fun u =>
    { u with
      stamp := if inSet u.stamp.coupled w.val then { u.stamp with band := none } else u.stamp
      grade := if inSet u.grade.coupled w.val then { u.grade with band := none } else u.grade }

/-- `win.cfg` (R50). -/
def execWinCfg (r : WinCfgReq) (s : State) : Host.Outcome State Fault Refusal :=
  unlessReset s fun s =>
    match winOf r.window with
    | none => s.refuse .badValue
    | some w =>
      match winCfgSettings r s.win.wins[w] with
      | none => s.refuse .badValue
      | some v =>
        if isRoot s then
          (winCfgRelease w (s.updWin fun u =>
            { u with wins := u.wins.set w { u.wins[w] with inForce := v } })).reply .ok []
        else
          (winCfgRelease w (s.updWin fun u =>
            { u with wins := u.wins.set w { u.wins[w] with staged := some v } })).reply .staged []

/-- `win.hyst` (R51). -/
def execWinHyst (h : Nat) (s : State) : Host.Outcome State Fault Refusal :=
  unlessReset s fun s => if h ≤ 65535 then (s.updWin fun u => { u with hyst := h }).accept else s.refuse .badValue

/-- A qualifier with the settings a `qual.cfg` carries, when every field is in its range (R52). -/
def qualCfgSettings (r : QualCfgReq) (q : Qualifier) : Option Qualifier :=
  let flag := fun (o : Option Nat) (old : Bool) =>
    match o with
    | none => some old
    | some v => boolOf v
  if optIn 0 15 r.coupled then
    match flag r.clearOnExit q.clearOnExit, flag r.entryOnly q.entryOnly, flag r.dropOnFault q.dropOnFault,
        flag r.originRequired q.originRequired with
    | some c, some o, some d, some g =>
      some { q with
        coupled := (r.coupled.map (BitVec.ofNat 4)).getD q.coupled
        clearOnExit := c, entryOnly := o, dropOnFault := d, originRequired := g }
    | _, _, _, _ => none
  else none

/-- What an accepted `qual.cfg` brings about at once, by what it changed (R52). Only a changed coupled set releases the band
(log 40). -/
def qualCfgEffects (n : QualName) (old new : Qualifier) (s : State) : State :=
  let s := if old.coupled ≠ new.coupled then s.updQual n fun q => { q with band := none } else s
  let s :=
    if !old.dropOnFault ∧ new.dropOnFault ∧ s.tb.role = .member ∧ s.tb.servo = .holdover ∧ new.mode = .auto then
      setQual n false .config s
    else s
  if old.originRequired ≠ new.originRequired then rootRule .config n s else s

/-- `qual.cfg` (R52). -/
def execQualCfg (r : QualCfgReq) (s : State) : Host.Outcome State Fault Refusal :=
  unlessReset s fun s =>
    match QualName.ofCode r.qualifier with
    | none => s.refuse .badValue
    | some n =>
      match qualCfgSettings r (s.win.qual n) with
      | none => s.refuse .badValue
      | some q => (qualCfgEffects n (s.win.qual n) q (s.updQual n fun _ => q)).accept

/-- Whether a qualifier that returns to AUTO on a member keeps its state (R46). -/
def keepsOnAuto (s : State) (q : Qualifier) : Bool :=
  s.tb.servo == .track || (s.tb.servo == .holdover && !q.dropOnFault && !s.win.limitFlag)

/-- The mode change of `qual.mode` (R46). -/
def setQualMode (n : QualName) (m : QualMode) (s : State) : State :=
  let q := s.win.qual n
  match m with
  | .forceOn => setQual n true .mode (s.updQual n fun q => { q with mode := .forceOn, band := none })
  | .forceOff => setQual n false .mode (s.updQual n fun q => { q with mode := .forceOff, band := none })
  | .auto =>
    if q.mode = .auto then s
    else
      let s := s.updQual n fun q => { q with mode := .auto, band := none }
      match s.tb.role with
      | .root => rootRule .mode n s
      | .member => if keepsOnAuto s q then s else setQual n false .mode s

/-- `qual.mode` (R46). -/
def execQualMode (qualifier mode : Nat) (s : State) : Host.Outcome State Fault Refusal :=
  unlessReset s fun s =>
    match QualName.ofCode qualifier, QualMode.ofCode mode with
    | some n, some m => (setQualMode n m s).accept
    | _, _ => s.refuse .badValue

end Sys2Proof.Machine
end

