-- ==== Sys2Proof/Machine/Timebase.lean ====
section
/-! DEFINITION. The timebase unit: steps, the servo, the spacing check, holdover, reference selection and the work of
an epoch boundary (chapter 1). -/
namespace Sys2Proof.Machine

/-! ### The step event (R27, R28) -/

/-- The timebase part of a step to a reading: the reading, the step count, and on a member the spacing record, which
moves by the amount in whole ticks (R16, R27). The amount is read as a signed value. DESIGN CHOICE (log 33, 69): the grid
values that the last advance passed are forgotten; an instant already due stays due. -/
def Timebase.stepTo (reading : SubTick) (t : Timebase) : Timebase :=
  { t with
    reading := reading, advFrom := wholeTicks reading, stepCount := t.stepCount + 1
    spacing :=
      if t.role = .member then
        t.spacing.map (· + BitVec.ofInt 56 (roundShift (reading - t.reading).toInt 8))
      else t.spacing }

/-- A step of the timebase to a reading: STEP is raised with the signed amount, and the step is announced to the
stream table, the trigger unit and the phase window unit (R27). The slots hold nothing that a step changes: each
sample instant is found from the reading (R158). DESIGN CHOICE (log 59): the stream table comes first, so a trigger that the
step's judgement fires (R187) marks no block that the step closes. -/
def stepBy (cause : StepCause) (reading : SubTick) (s : State) : State :=
  let amount := (reading - s.tb.reading).toInt
  let s := raiseNotice .step cause.code amount 0 (s.updTb (Timebase.stepTo reading))
  clearPrevValid (stepTriggers (stepStreams s))

/-! ### Servo states (R9, R18, R20) -/

/-- The length of the silence timer: 3 × E oscillator ticks (R18). -/
def Timebase.silenceLoad (t : Timebase) : Nat := 3 * t.epoch

/-- A change of servo state raises SERVO_STATE and is announced to the phase window unit (R9). -/
def setServo (new : ServoState) (cause : ServoCause) (s : State) : State :=
  let old := s.tb.servo
  if old = new then s
  else windowsServo old new (raiseNotice .servoState new.code cause.code 0 (s.updTb fun t => { t with servo := new }))

/-- Entry to ACQUIRE: the excursion count is 0 and the silence timer restarts (R18). -/
def enterAcquire (cause : ServoCause) (s : State) : State :=
  setServo .acquire cause (s.updTb fun t => { t with excursions := 0, silence := some t.silenceLoad })

/-- Entry to HOLDOVER from ACQUIRE or TRACK (R20); the silence timer stops (R18). A member already in HOLDOVER stays
there and its count runs on; in FREE nothing changes (R25). -/
def enterHoldover (cause : ServoCause) (s : State) : State :=
  if s.tb.servo = .acquire ∨ s.tb.servo = .track then
    setServo .holdover cause (s.updTb fun t =>
      { t with slew := 0, excursions := 0, holdoverCount := 0, holdoverLimitHit := false, silence := none })
  else s

/-- A reference change (R25). A change to a port puts the servo in ACQUIRE and restarts the silence timer (R18); a
change to none puts it in HOLDOVER, or leaves it in FREE. -/
def refChange (new : Option PortId) (s : State) : State :=
  let old := s.tb.ref
  if old = new then s
  else
    let s := s.updTb fun t =>
      { t with ref := new, hadRef := t.hadRef || new.isSome, spacing := none, goodSpacings := 0, excursions := 0 }
    let s := clearPrevValid (raiseNotice .refChanged (portSubject new) (portCode old) 0 s)
    match new with
    | some _ => enterAcquire .refChange s
    | none => enterHoldover .refLoss s

/-- A port leaves ACTIVE: when it is the reference, the reference becomes none at once (R26). -/
def dropReference (p : PortId) (s : State) : State := if s.tb.ref = some p then refChange none s else s

/-- A marker fault (R17): MARKER_FAULT, then HOLDOVER with the reference kept. -/
def markerFault (cause : FaultCause) (s : State) : State :=
  let s := raiseNotice .markerFault (portSubject s.tb.ref) cause.code 0 s
  enterHoldover .fault (s.updTb fun t => { t with goodSpacings := 0 })

/-! ### The servo update (R11 to R14) -/

/-- The phase error of a marker: M + D - A, read as signed and saturated (R11). -/
def phaseError (m : SubTick) (delay : Nat) (arrival : SubTick) : Int :=
  clampTo Config.errorMax (m + BitVec.ofNat 64 delay - arrival).toInt

/-- The correction of the TRACK rule (R13). -/
def Timebase.correct (e : Int) (t : Timebase) : Timebase :=
  { t with
    excursions := 0
    slew := clampTo t.params.smax (roundShift e t.params.p)
    freq := clampTo t.params.fmax (t.freq + roundShift e t.params.i) }

/-- A marker corrects in TRACK and is passed to the phase window unit (R13, R14). -/
def trackCorrect (e : Int) (s : State) : State := evaluate e .track false (s.updTb (Timebase.correct e))

/-- The ACQUIRE rule (R12): a large error steps the timebase; a small one enters TRACK and corrects. DESIGN CHOICE (log 64): at a
stepping marker the evaluation comes before the reading moves, so its window notices precede STEP and carry the reading before
the step (R14, R36). -/
def useAcquire (e : Int) (s : State) : State :=
  if s.tb.params.tstep ≤ e.natAbs then
    let s := evaluate e .acquire true (s.updTb fun t => { t with slew := 0 })
    stepBy .acquireMarker (s.tb.reading + BitVec.ofInt 64 e) s
  else trackCorrect e (setServo .track .marker (s.updTb fun t => { t with excursions := 0 }))

/-- The TRACK rule (R13): a correction, a first excursion, or a second one, which goes back to ACQUIRE. -/
def useTrack (e : Int) (s : State) : State :=
  if s.tb.params.tstep ≤ e.natAbs then
    if s.tb.excursions = 0 then evaluate e .track false (s.updTb fun t => { t with excursions := 1 })
    else useAcquire e (enterAcquire .excursion s)
  else trackCorrect e s

/-! ### The spacing check and markers received (R7, R8, R16, R17, R19) -/

/-- Whether a spacing lies within the tolerance of E or of 2E (R16). -/
def spacingGood (t : Timebase) (spacing : Nat) : Bool :=
  decide (((spacing : Int) - t.epoch).natAbs ≤ t.params.spacingTol) ||
    decide (((spacing : Int) - 2 * t.epoch).natAbs ≤ t.params.spacingTol)

/-- The judgement of a marker's arrival against the spacing record: none when the record holds nothing (R16). -/
def judgeSpacing (t : Timebase) (arrival : Tick) : Option Bool :=
  t.spacing.map fun last => spacingGood t (arrival - last).toNat

/-- A marker on the reference in HOLDOVER (R11, R19): the last e is recorded, the good spacings are counted, and the
fourth one with auto-recover on returns the servo to ACQUIRE, which uses the marker. -/
def holdoverMarker (e : Int) (judged : Option Bool) (s : State) : State :=
  let s := s.updTb fun t =>
    { t with
      lastE := e
      goodSpacings := match judged with
        | none => t.goodSpacings
        | some true => satInc 255 t.goodSpacings
        | some false => 0 }
  if judged = some true ∧ s.tb.params.autoRecover ∧ 4 ≤ s.tb.goodSpacings then
    useAcquire e (enterAcquire .autoRecover (s.updTb fun t => { t with goodSpacings := 0 }))
  else s

/-- A marker taken on the reference port: the loop test of R8, the spacing check, and the servo. -/
def referenceMarker (p : PortId) (c : MarkerCell) (arrival : SubTick) (s : State) : State :=
  if c.upstream = s.mgmt.frame then refChange none s
  else
    let judged := judgeSpacing s.tb (wholeTicks arrival)
    let e := phaseError c.stamp (s.port p).delay arrival
    let s := s.updTb fun t =>
      { t with
        spacing := some (wholeTicks arrival)
        silence := if t.servo = .acquire ∨ t.servo = .track then some t.silenceLoad else t.silence }
    match s.tb.servo with
    | .acquire =>
      if judged = some false then markerFault .spacing s else useAcquire e (s.updTb fun t => { t with lastE := e })
    | .track =>
      if judged = some false then markerFault .spacing s else useTrack e (s.updTb fun t => { t with lastE := e })
    | .holdover => holdoverMarker e judged s
    | .free => s
    | .master => s

/-- A port is in service for the cells of R7, R120 and R144: ACTIVE or DRAINING. -/
def inService (q : Port) : Bool := q.link == .active || q.link == .draining

/-- A MARKER received (R7). -/
def receiveMarker (p : PortId) (c : MarkerCell) (arrival : SubTick) (s : State) : State :=
  if !inService (s.port p) then s
  else if c.epoch ≠ s.tb.epoch then
    if (s.port p).mismatch then s
    else raiseNotice .epochMismatch p.val c.epoch 0 (s.updPort p fun q => { q with mismatch := true })
  else
    let s := s.updPort p fun q =>
      { q with
        mismatch := false
        marker := some
          { sender := c.sender, epoch := c.epoch, hop := c.hop, grade := c.grade, aligned := c.aligned,
            upstream := c.upstream, age := 0 } }
    if s.tb.role = .member ∧ s.tb.ref = some p then referenceMarker p c arrival s else s

/-- A MARKER received (R7, R78). -/
def execMarkerReceived (a : ArrivalPort) (c : MarkerCell) (arrival : SubTick) (s : State) :
    Host.Outcome State Fault Refusal := unlessReset s fun s => whenBegun a (fun p => receiveMarker p c arrival) s

/-- The silence timer runs out: a marker fault with cause silence, and the spacing record is emptied (R18). -/
def execSilenceTimeout (s : State) : Host.Outcome State Fault Refusal :=
  unlessReset s fun s =>
    if s.tb.servo = .acquire ∨ s.tb.servo = .track then
      markerFault .silence (s.updTb fun t => { t with spacing := none, silence := none })
    else s

/-! ### Reference selection (R22 to R24) -/

/-- Whether a port is eligible as the reference (R22). -/
def eligible (frame : Nat) (q : Port) : Bool :=
  q.link == .active && !q.mismatch &&
    match q.marker with
    | none => false
    | some m => decide (m.age ≤ 2) && m.grade && decide (m.hop ≤ 30) && m.upstream != frame

/-- The hop count of a port's last marker. -/
def markerHop (q : Port) : Nat := (q.marker.map (·.hop)).getD 31

/-- Whether port `a` is better than port `b`, which has the higher number (R23). -/
def betterPort (a b : Port) : Bool :=
  decide (markerHop a < markerHop b) || (markerHop a == markerHop b && decide (a.peer ≤ b.peer))

/-- The best of a list of ports in ascending order (R23). -/
def bestPort (s : State) : List PortId → Option PortId
  | [] => none
  | p :: ps =>
    match bestPort s ps with
    | none => some p
    | some b => if betterPort (s.port p) (s.port b) then some p else some b

/-- The reference that a boundary's selection gives a member (R23, R24). -/
def selectReference (s : State) : Option PortId :=
  let ok := fun p => eligible s.mgmt.frame (s.port p)
  match s.tb.refMode with
  | .manual => s.tb.chosen.filter ok
  | .auto =>
    let best := bestPort s (allPorts.filter ok)
    match s.tb.ref, best with
    | some r, some b => if ok r ∧ markerHop (s.port r) ≤ markerHop (s.port b) then some r else some b
    | _, b => b

/-! ### The work of an epoch boundary (R2) -/

/-- A staged E comes into force (R3): the remainder becomes 0, the spacing record is emptied, and a running silence
timer restarts (R16, R18). -/
def applyEpoch (s : State) : State :=
  match s.tb.epochStaged with
  | none => s
  | some e =>
    raiseNotice .epochApplied noSubject e 0 (s.updTb fun t =>
      { t with
        epoch := e, epochStaged := none, remainder := 0, spacing := none
        silence := t.silence.map fun _ => 3 * e })

/-- The gain fixed at a boundary: E × 256 on the root, E × 256 + F + S on a member (R1). -/
def Timebase.nextGain (t : Timebase) : Nat :=
  match t.role with
  | .root => t.epoch * 256
  | .member => ((t.epoch * 256 : Nat) + t.freq + t.slew : Int).toNat

/-- The holdover count of a boundary, and the holdover limit (R21). -/
def countHoldover (s : State) : State :=
  if s.tb.servo = .holdover then
    let s := s.updTb fun t => { t with holdoverCount := satInc 65535 t.holdoverCount }
    if s.tb.params.holdoverLimit ≠ 0 ∧ s.tb.params.holdoverLimit ≤ s.tb.holdoverCount ∧ !s.tb.holdoverLimitHit then
      windowsLimit (raiseNotice .holdoverLimit noSubject s.tb.holdoverCount 0
        (s.updTb fun t => { t with holdoverLimitHit := true }))
    else s
  else s

/-- Raise the age of every valid last-marker record (R7). -/
def ageMarkers (s : State) : State :=
  forPorts (fun p s => s.updPort p fun q =>
    { q with marker := q.marker.map fun m => { m with age := satInc 255 m.age } }) s

/-- Offer a MARKER to every ACTIVE port (R5). -/
def offerMarkers (s : State) : State :=
  forPorts (fun p s => if (s.port p).link = .active then offerMarker p s else s) s

/-- The timebase unit's own work at a boundary, in the order R2 lists it: the staged epoch length, the gain, the
markers, the marker ages, the holdover count, and reference selection on a member. -/
def timebaseBoundary (s : State) : State :=
  let s := (applyEpoch s).updTb fun t => { t with gain := t.nextGain }
  let s := countHoldover (ageMarkers (offerMarkers s))
  if s.tb.role = .member then refChange (selectReference s) s else s

end Sys2Proof.Machine
end

