-- ==== Sys2Proof/Machine/Origin.lean ====
section
/-! DEFINITION. The origin unit: its inputs, the approach, the monitoring of pulses, and its requests (chapter 3). -/
namespace Sys2Proof.Machine

/-! ### State and flag changes (R56, R66) -/

/-- A change of origin state raises ORIGIN_STATE with the state that was left in the extra word (R56). -/
def setOrigin (new : OriginState) (cause : OriginCause) (s : State) : State :=
  let old := s.org.state
  if old = new then s
  else raiseNotice .originState new.code cause.code old.code (s.updOrg fun o => { o with state := new })

/-- A change of the aligned flag is announced to the phase window unit (R66). -/
def setAligned (v : Bool) (s : State) : State :=
  if s.org.aligned = v then s else windowsOrigin (s.updOrg fun o => { o with aligned := v })

/-- Leave SYNCING: the pulse-seen and disarm-pending flags are cleared (R60, R67). -/
def clearApproach (o : Origin) : Origin := { o with pulseSeen := false, disarmPending := false }

/-! ### The inputs (R57 to R62) -/

/-- The deviation of a pulse: the arrival minus O, modulo 2^56 and signed, reduced to within half a period (R62). -/
def pulseDeviation (arrival value : Tick) (period : Nat) : Int :=
  let r := (arrival - value).toInt % (period : Int)
  if 2 * r ≤ period then r else r - period

/-- A pulse judged in SETTLING or ALIGNED (R62). -/
def judgePulse (s : State) : State :=
  let dev := pulseDeviation s.now s.org.value s.org.period
  let s := s.updOrg fun o => { o with deviation := some dev }
  if dev.natAbs ≤ s.org.tolerance then s
  else setAligned false (setOrigin .idle .pulseFault (raiseNotice .pulseFault noSubject dev s.org.state.code s))

/-- A rising edge of REF PULSE (R57, R59). -/
def refPulse (s : State) : State :=
  if isRoot s then
    let s := s.updOrg fun o => { o with lastArrival := some s.tb.reading, pulseCount := o.pulseCount + 1 }
    match s.org.state with
    | .idle => s
    | .armed => s
    | .syncing =>
      (stepBy .originPulse (atTick s.org.value) (s.updOrg fun o => { o with deviation := none })).updOrg
        fun o => { o with pulseSeen := true }
    | .settling => judgePulse s
    | .aligned => judgePulse s
  else s

/-- REF_PULSE_EDGE (R57). -/
def execRefPulseEdge (s : State) : Host.Outcome State Fault Refusal := unlessReset s fun s => refPulse s

/-- START rises: ARMED goes to SYNCING on the root (R58). -/
def execStartRise (s : State) : Host.Outcome State Fault Refusal :=
  unlessReset (s.updOrg fun o => { o with startLevel := true }) fun s =>
    if isRoot s ∧ s.org.state = .armed then setOrigin .syncing .startRise (s.updOrg clearApproach) else s

/-- START falls: the approach window of SYNCING ends on the root (R60). -/
def execStartFall (s : State) : Host.Outcome State Fault Refusal :=
  unlessReset (s.updOrg fun o => { o with startLevel := false }) fun s =>
    if isRoot s ∧ s.org.state = .syncing then
      if s.org.pulseSeen then
        setOrigin .settling .startFall (s.updOrg fun o => { clearApproach o with settleCtr := o.settleLen, settleShift := 0 })
      else if s.org.disarmPending then setOrigin .idle .startFall (s.updOrg clearApproach)
      else setOrigin .armed .startFall (s.updOrg clearApproach)
    else s

/-- One boundary of settling (R61). A boundary that a step backward passes again leaves the counter; any other counts 1, and
with it the multiples that a step forward skipped since the last one (log 51). -/
def Origin.settle (o : Origin) : Origin :=
  if o.settleShift < 0 then { o with settleShift := o.settleShift + 1 }
  else { o with settleCtr := o.settleCtr - (1 + o.settleShift.toNat), settleShift := 0 }

/-- The settle counter at an epoch boundary (R61). -/
def originBoundary (s : State) : State :=
  if s.org.state = .settling then
    let s := s.updOrg Origin.settle
    if s.org.settleCtr = 0 then setAligned true (setOrigin .aligned .settled s) else s
  else s

/-- A role change to MEMBER (R67). -/
def originToMember (s : State) : State :=
  setAligned false (setOrigin .idle .role (s.updOrg fun o => { clearApproach o with settleCtr := 0, settleShift := 0 }))

/-! ### Requests (R63 to R65, R68) -/

/-- `org.arm` (R63). -/
def execOrgArm (s : State) : Host.Outcome State Fault Refusal :=
  unlessReset s fun s =>
    if !isRoot s then s.refuse .notRoot
    else if s.org.state = .idle ∨ s.org.state = .aligned then (setAligned false (setOrigin .armed .arm s)).accept
    else s.refuse .state

/-- What `org.disarm` does in each origin state (R64). -/
def disarm (s : State) : State :=
  match s.org.state with
  | .idle => s
  | .armed => setOrigin .idle .disarm s
  | .syncing => s.updOrg fun o => { o with disarmPending := true }
  | .settling => s
  | .aligned => setAligned false (setOrigin .idle .disarm s)

/-- `org.disarm` (R64); the reply carries the origin state after the request. -/
def execOrgDisarm (s : State) : Host.Outcome State Fault Refusal :=
  unlessReset s fun s =>
    if isRoot s then (disarm s).reply .ok [BitVec.ofNat 8 (disarm s).org.state.code] else s.refuse .notRoot

/-- How many whole multiples of `e` lie among the `n` ticks that follow `v`, modulo 2^56. -/
def multiplesAfter (e : Nat) (v : Tick) (n : Nat) : Nat :=
  let last := v.toNat + n
  if last < 2 ^ 56 then last / e - v.toNat / e
  else (2 ^ 56 - 1) / e - v.toNat / e + ((last - 2 ^ 56) / e + 1)

/-- The multiples of `e` that a step by `offset` ticks from `v` skips, or, below 0, passes again (R61). A multiple that the
step lands on makes no boundary, so a step forward skips it (R28). -/
def multiplesSkipped (e : Nat) (v : Tick) (offset : Int) : Int :=
  if 0 ≤ offset then multiplesAfter e v offset.toNat
  else -multiplesAfter e (v + BitVec.ofInt 56 offset) offset.natAbs

/-- What `tb.offset` does with the origin unit: O moves with the timebase (R65), and in SETTLING the multiples of E that the
step skips or passes again are noted for the boundaries to come, the settle counter being kept (R61, R65). DESIGN CHOICE
(log 51): the next boundary counts those skipped. -/
def Origin.shift (e : Nat) (v : Tick) (offset : Int) (o : Origin) : Origin :=
  { o with
    value := o.value + BitVec.ofInt 56 offset
    settleShift := if o.state = .settling then o.settleShift + multiplesSkipped e v offset else o.settleShift }

/-- `tb.offset` (R65): a step by the offset, and the origin unit's part. DESIGN CHOICE (log 52): a member answers NOT_ROOT
whatever the offset, R65 naming no order for its two refusals. -/
def execTbOffset (offset : Int) (s : State) : Host.Outcome State Fault Refusal :=
  unlessReset s fun s =>
    if !isRoot s then s.refuse .notRoot
    else if offset.natAbs ≤ 2 ^ 47 then
      ((stepBy .offset (s.tb.reading + BitVec.ofInt 64 (offset * 256)) s).updOrg
        (Origin.shift s.tb.epoch s.now offset)).accept
    else s.refuse .badValue

/-- The settings an `org.cfg` gives, when they are in their ranges (R55, R68). -/
def orgCfgSettings (r : OrgCfgReq) (o : Origin) : Option Origin :=
  let n : Origin :=
    { o with
      value := (r.value.map (BitVec.ofNat 56)).getD o.value
      period := r.period.getD o.period
      tolerance := r.tolerance.getD o.tolerance
      settleLen := r.settleLen.getD o.settleLen }
  if optIn 0 (2 ^ 56 - 1) r.value && optIn 4096 (2 ^ 32 - 1) r.period && optIn 1 65535 r.tolerance
      && optIn 1 255 r.settleLen && optIn 0 1 r.originRequired && decide (2 * n.tolerance < n.period) then
    some n
  else none

/-- Whether an `org.cfg` carries a setting of the origin itself (R68). -/
def orgCfgSets (r : OrgCfgReq) : Bool :=
  r.value.isSome || r.period.isSome || r.tolerance.isSome || r.settleLen.isSome

/-- Write origin-required to both qualifiers, and apply the root rule to each (R45, R68). -/
def setOriginRequired (v : Bool) (s : State) : State :=
  let s := s.updQual .grade fun q => { q with originRequired := v }
  let s := s.updQual .stamp fun q => { q with originRequired := v }
  rootRule .config .grade (rootRule .config .stamp s)

/-- `org.cfg` (R68). -/
def execOrgCfg (r : OrgCfgReq) (s : State) : Host.Outcome State Fault Refusal :=
  unlessReset s fun s =>
    if !isRoot s then s.refuse .notRoot
    else
      match orgCfgSettings r s.org with
      | none => s.refuse .badValue
      | some n =>
        if orgCfgSets r ∧ s.org.state ≠ .idle ∧ s.org.state ≠ .armed then s.refuse .state
        else
          let s := s.updOrg fun _ => n
          match r.originRequired with
          | none => s.accept
          | some v => (setOriginRequired (v == 1) s).accept

end Sys2Proof.Machine
end

