-- ==== Sys2Proof/Machine/Ports.lean ====
section
/-! DEFINITION. The link ports: presence, signal, training, errors, drain, teardown, and the requests over them
(chapter 4). -/
namespace Sys2Proof.Machine

/-! ### Link states and timers (R70, R71) -/

/-- Oscillator ticks in a number of milliseconds (R71). -/
def msLoad (ms : Nat) : Nat := ms * Config.ticksPerMs

/-- A port in another link state: every timer of the state it leaves stops (R71). -/
def Port.goTo (l : LinkState) (q : Port) : Port :=
  { q with link := l, debounce := none, signalWait := none, grace := none, drain := none }

def setLink (p : PortId) (l : LinkState) (s : State) : State := s.updPort p (Port.goTo l)

/-- Entry to WAITING with signal detect low: the signal-wait timer is loaded (R75). -/
def waitSignal (p : PortId) (s : State) : State :=
  s.updPort p fun q => { q.goTo .waiting with signalWait := some (msLoad q.cfg.signalWait) }

/-- Entry to LOST, with signal detect low: the grace timer is loaded; a grace of 0 expires at once and the port passes
into WAITING (R71, R76). -/
def enterLost (p : PortId) (s : State) : State :=
  if (s.port p).cfg.grace = 0 then waitSignal p s
  else s.updPort p fun q => { q.goTo .lost with grace := some (msLoad q.cfg.grace) }

/-- What abandoning a training does besides the change of state (R86). -/
def abandonTraining (p : PortId) (s : State) : State :=
  (emptyQueues p s).updPort p fun q =>
    { q with resumeOwed := false, train := { q.train with outstanding := none } }

/-- How many PROBE cells wait in a timing queue. -/
def probesWaiting (cs : List TimingCell) : Nat :=
  (cs.filter fun c => match c with
    | .probe _ _ _ => true
    | _ => false).length

/-- The training record at the start of a training, with the delay window latched (R79). The PROBE cells that an earlier
run left in the timing queue are counted (log 38). -/
def Training.begin (cfg : PortSettings) (earlier : Nat) : Training :=
  { attempt := 1, probeCount := 0, outstanding := none, rts := Vector.replicate 8 none, dmin := cfg.dmin,
    dmax := cfg.dmax, responder := none, earlier := earlier }

/-- A port in TRAINING loses its signal (R74). -/
def trainingLost (p : PortId) (s : State) : State :=
  enterLost p (abandonTraining p (raiseNotice .portLost p.val LinkState.training.code 0 s))

/-- Entry to TRAINING (R79). With signal detect low the port enters LOST at once. -/
def enterTraining (p : PortId) (s : State) : State :=
  let s := s.updPort p fun q =>
    { q.goTo .training with
      train := Training.begin q.cfg (probesWaiting q.timingQ), resumePending := false, resumeProbe := false }
  if (s.port p).signal then s else trainingLost p s

/-- Entry to WAITING (R75). -/
def enterWaiting (p : PortId) (s : State) : State :=
  if (s.port p).signal then
    if s.mgmt.frame = 0 then setLink p .waiting s else enterTraining p s
  else waitSignal p s

/-! ### Teardown (R96, R97) -/

/-- The teardown of a port that has left service. Its notice, if it has one, has been raised and its link state
changed. -/
def teardown (p : PortId) (s : State) : State :=
  let s := (emptyQueues p s).updPort p fun q =>
    { q with quiesceOwed := false, resumeOwed := false, resumePending := false, resumeProbe := false }
  let s := dropForwards p (streamsTeardown p s)
  let s := s.updPort p fun q => { q with marker := none, mismatch := false }
  dropReference p s

/-- Entry to ISOLATED (R88). -/
def isolate (p : PortId) (cause : IsoCause) (extra : Int) (s : State) : State :=
  let left := (s.port p).link
  let s := raiseNotice .portIsolated p.val cause.code extra s
  let s := s.updPort p fun q => { q.goTo .isolated with cause := cause }
  match left with
  | .training => abandonTraining p s
  | .active => teardown p s
  | _ => s

/-! ### Presence and signal (R72 to R76) -/

/-- Entry to EMPTY; a level already high is taken as a rise (R72). -/
def enterEmpty (p : PortId) (s : State) : State :=
  s.updPort p fun q =>
    if q.present then { q.goTo .settling with debounce := some (msLoad q.cfg.debounce) } else q.goTo .empty

/-- Pn_PRESENT rises (R72). -/
def execPortPresentRise (p : PortId) (s : State) : Host.Outcome State Fault Refusal :=
  unlessReset (s.updPort p fun q => { q with present := true }) fun s =>
    if (s.port p).link = .empty then enterEmpty p s else s

/-- A removal from WAITING to ISOLATED: PORT_REMOVED with its detail and the state left (R73). -/
def portRemoved (detail : Nat) (p : PortId) (s : State) : State :=
  setLink p .empty (raiseNotice .portRemoved p.val detail (s.port p).link.code s)

/-- Pn_PRESENT falls (R72, R73). The details are ORDERLY (0), SURPRISE (1) and IDLE (2). -/
def execPortPresentFall (p : PortId) (s : State) : Host.Outcome State Fault Refusal :=
  unlessReset (s.updPort p fun q => { q with present := false }) fun s =>
    match (s.port p).link with
    | .disabled => s
    | .empty => s
    | .settling => setLink p .empty s
    | .waiting => portRemoved 2 p s
    | .training => abandonTraining p (portRemoved 2 p s)
    | .active => teardown p (portRemoved 1 p s)
    | .lost => portRemoved 2 p s
    | .draining => teardown p (portRemoved 1 p s)
    | .quiesced => emptyQueues p (portRemoved 0 p s)
    | .isolated => portRemoved 2 p s

/-- The debounce timer of a port expires (R72). -/
def execPortDebounceExpiry (p : PortId) (s : State) : Host.Outcome State Fault Refusal :=
  unlessReset s fun s =>
    if (s.port p).link = .settling then enterWaiting p (raiseNotice .portInserted p.val 0 0 s) else s

/-- Pn_SD rises (R74 to R76). -/
def execPortSignalRise (p : PortId) (s : State) : Host.Outcome State Fault Refusal :=
  unlessReset (s.updPort p fun q => { q with signal := true }) fun s =>
    match (s.port p).link with
    | .waiting => enterWaiting p s
    | .lost => enterTraining p s
    | _ => s

/-- Pn_SD falls (R74, R75). -/
def execPortSignalFall (p : PortId) (s : State) : Host.Outcome State Fault Refusal :=
  unlessReset (s.updPort p fun q => { q with signal := false }) fun s =>
    let l := (s.port p).link
    match l with
    | .waiting => waitSignal p s
    | .training => trainingLost p s
    | .active => teardown p (enterLost p (raiseNotice .portLost p.val l.code 0 s))
    | .draining => teardown p (enterLost p (raiseNotice .portLost p.val l.code 0 s))
    | _ => s

/-- The signal-wait timer expires (R75). -/
def execSignalWaitExpiry (p : PortId) (s : State) : Host.Outcome State Fault Refusal :=
  unlessReset s fun s =>
    if (s.port p).link = .waiting ∧ (s.port p).signalWait.isSome then isolate p .noSignal 0 s else s

/-- The grace timer expires (R76). -/
def execGraceExpiry (p : PortId) (s : State) : Host.Outcome State Fault Refusal :=
  unlessReset s fun s => if (s.port p).link = .lost then enterWaiting p s else s

/-! ### Cells taken in every sending state (R78, R87) -/

/-- A port checks and takes the cells that reach it in these states (R78). -/
def takesCells (q : Port) : Bool :=
  q.link == .training || q.link == .active || q.link == .draining || q.link == .quiesced

/-- A cell with a bad CRC, on a port that takes cells (R78, R87). -/
def receiveBad (p : PortId) (s : State) : State :=
  if takesCells (s.port p) then
    let s := s.updPort p fun q => { q with badCrc := q.badCrc + 1, score := satInc 255 q.score }
    if (s.port p).link = .active ∧ (s.port p).cfg.threshold ≤ (s.port p).score then
      isolate p .errors (s.port p).score s
    else s
  else s

/-- A cell with a bad CRC (R78, R87). -/
def execCellBadCrc (a : ArrivalPort) (s : State) : Host.Outcome State Fault Refusal :=
  unlessReset s fun s => whenBegun a receiveBad s

/-- A good cell of unknown kind, on a port that takes cells (R78). -/
def receiveUnknown (p : PortId) (s : State) : State :=
  if takesCells (s.port p) then s.updPort p fun q => { q with badCrc := q.badCrc + 1 } else s

/-- A good cell of unknown kind (R78). -/
def execCellUnknownKind (a : ArrivalPort) (s : State) : Host.Outcome State Fault Refusal :=
  unlessReset s fun s => whenBegun a receiveUnknown s

/-! ### Training (R80 to R85) -/

/-- Set resume-pending, keeping the kind of the cell that first set it (R95; log 15). -/
def setResumePending (probe : Bool) (p : PortId) (s : State) : State :=
  s.updPort p fun q => if q.resumePending then q else { q with resumePending := true, resumeProbe := probe }

/-- PORT_RESUMED with RESUME (0) or PROBE (1), and entry to TRAINING (R95). -/
def peerResumes (probe : Bool) (p : PortId) (s : State) : State :=
  enterTraining p (raiseNotice .portResumed p.val (if probe then 1 else 0) 0 s)

/-- Answer a PROBE with an ECHO (R81). -/
def answerProbe (p : PortId) (c : ProbeCell) (arrival : SubTick) (s : State) : State :=
  offerTiming p (.echo s.mgmt.frame c.sender c.attempt c.index arrival) s

/-- A PROBE received, by the port's state (R78, R81, R95). -/
def receiveProbe (p : PortId) (c : ProbeCell) (arrival : SubTick) (s : State) : State :=
  let own := c.sender == s.mgmt.frame
  let answered := if own then s else answerProbe p c arrival s
  match (s.port p).link with
  | .training => if own then isolate p .selfLoop s.mgmt.frame s else answered
  | .active => answered
  | .draining => setResumePending true p answered
  | .quiesced => peerResumes true p answered
  | _ => s

/-- A PROBE received (R78, R81, R95). -/
def execProbeReceived (a : ArrivalPort) (c : ProbeCell) (arrival : SubTick) (s : State) :
    Host.Outcome State Fault Refusal := unlessReset s fun s => whenBegun a (fun p => receiveProbe p c arrival) s

/-- Whether an ECHO counts for the outstanding probe (R82). -/
def echoCounts (frame : Nat) (t : Training) (c : EchoCell) : Bool :=
  c.sender == frame && c.attempt == t.attempt &&
    match t.outstanding with
    | none => false
    | some (i, _) => c.index == i

/-- The round trip of an ECHO (R82). Each inner difference is taken modulo 2^64 and read as signed. DESIGN CHOICE (log 61): the
outer difference is an exact number, which R82 does not say it reduces. -/
def roundTrip (t1 t2 t3 t4 : SubTick) : Int := (t4 - t1).toInt - (t3 - t2).toInt

/-- Write a valid round trip at a probe's index (R82). -/
def Training.record (index : Nat) (rt : Int) (t : Training) : Training :=
  if 0 ≤ rt ∧ rt ≤ 2 * t.dmax then
    match slotOf (index - 1) with
    | none => t
    | some i => { t with rts := t.rts.set i (some rt.toNat) }
  else t

/-- A counting ECHO, after the self-loop test (R82). -/
def Training.takeEcho (c : EchoCell) (t1 t4 : SubTick) (t : Training) : Training :=
  if t.responder.getD c.responder = c.responder then
    Training.record c.index (roundTrip t1 c.t2 c.t3 t4)
      { t with outstanding := none, responder := some c.responder }
  else { t with outstanding := none }

/-- An ECHO received in TRAINING; in any other state it is discarded (R78, R82). -/
def receiveEcho (p : PortId) (c : EchoCell) (arrival : SubTick) (s : State) : State :=
  let t := (s.port p).train
  if (s.port p).link = .training ∧ echoCounts s.mgmt.frame t c then
    if c.responder = s.mgmt.frame then
      isolate p .selfLoop s.mgmt.frame (s.updPort p fun q => { q with train := { q.train with outstanding := none } })
    else
      let t1 := (t.outstanding.map (·.2)).getD 0
      s.updPort p fun q => { q with train := q.train.takeEcho c t1 arrival }
  else s

/-- An ECHO received (R78, R82). -/
def execEchoReceived (a : ArrivalPort) (c : EchoCell) (arrival : SubTick) (s : State) :
    Host.Outcome State Fault Refusal := unlessReset s fun s => whenBegun a (fun p => receiveEcho p c arrival) s

/-- Insert a number into an ascending list. -/
def insertNat (n : Nat) : List Nat → List Nat
  | [] => [n]
  | m :: ms => if n ≤ m then n :: m :: ms else m :: insertNat n ms

/-- The valid round trips of an attempt, ascending (R83). -/
def Training.valid (t : Training) : List Nat := (t.rts.toList.filterMap id).foldr insertNat []

/-- The delay computed from four or more round trips: the four smallest, summed, over 8, rounded half up (R83). -/
def computedDelay (rts : List Nat) : Nat := ((rts.take 4).foldr (· + ·) 0 + 4) / 8

/-- Entry to ACTIVE, and its announcements (R84, R85). -/
def enterActive (p : PortId) (d : Nat) (s : State) : State :=
  let s := s.updPort p fun q => { q.goTo .active with delay := d, peer := q.train.responder.getD q.peer, score := 0 }
  streamsPortActive p (raiseNotice .portActive p.val d (s.port p).peer s)

/-- The judgement of an attempt at its closing boundary (R83, R84). -/
def judgeAttempt (p : PortId) (s : State) : State :=
  let s := s.updPort p fun q => { q with train := { q.train with outstanding := none } }
  let t := (s.port p).train
  if 4 ≤ t.valid.length then
    if t.dmin ≤ computedDelay t.valid then enterActive p (computedDelay t.valid) s
    else isolate p .delayRange (computedDelay t.valid) s
  else if t.attempt < 3 then
    s.updPort p fun q => { q with train :=
      { q.train with
        attempt := q.train.attempt + 1, probeCount := 0, responder := none, rts := Vector.replicate 8 none } }
  else isolate p .training t.valid.length s

/-- The close of the window of probe `k`: the outstanding probe becomes none when it is that one (R82). -/
def closeWindow (k : Nat) : Option (Nat × SubTick) → Option (Nat × SubTick)
  | none => none
  | some (i, t1) => if i = k then none else some (i, t1)

/-- Offer probe k of an attempt; without room for it, the window of probe k - 1 closes (R80, R82). -/
def offerProbe (p : PortId) (s : State) : State :=
  let k := (s.port p).train.probeCount + 1
  let room := timingRoom (s.port p)
  let s := offerTiming p (.probe s.mgmt.frame (s.port p).train.attempt k) s
  s.updPort p fun q => { q with train :=
    { q.train with
      probeCount := k, outstanding := if room then q.train.outstanding else closeWindow (k - 1) q.train.outstanding } }

/-- The work of a training port at an epoch boundary (R80, R83). -/
def trainingBoundary (p : PortId) (s : State) : State :=
  if (s.port p).link = .training then
    if (s.port p).train.probeCount < 8 then offerProbe p s else judgeAttempt p s
  else s

/-- The decay of the error score at a boundary, in every state (R87). -/
def decayScore (p : PortId) (s : State) : State := s.updPort p fun q => { q with score := q.score - 1 }

/-- Owed QUIESCE and RESUME flags that no longer apply are cleared at a boundary (R103). -/
def expireOwed (p : PortId) (s : State) : State :=
  s.updPort p fun q =>
    { q with
      quiesceOwed := q.quiesceOwed && q.link == .draining
      resumeOwed := q.resumeOwed && q.link == .training }

/-! ### Drain, quiesce, resume (R89 to R95) -/

/-- Entry to DRAINING: the drain timer, the notice with REQUEST (0) or PEER (1), and the announcements of R91. -/
def enterDraining (detail : Nat) (p : PortId) (s : State) : State :=
  let s := s.updPort p fun q => { q.goTo .draining with drain := some (msLoad q.cfg.drainTimeout) }
  streamsPortDraining p (dropReference p (raiseNotice .portDraining p.val detail 0 s))

/-- Offer a QUIESCE, or owe it (R89, R106). -/
def offerQuiesce (p : PortId) (s : State) : State :=
  if ctrlRoom (s.port p) then pushControl p .quiesce s else s.updPort p fun q => { q with quiesceOwed := true }

/-- Offer a RESUME, or owe it (R94, R106). -/
def offerResume (p : PortId) (s : State) : State :=
  if ctrlRoom (s.port p) then pushControl p .resume s else s.updPort p fun q => { q with resumeOwed := true }

/-- Whether any cell is owed to a port's control queue (R91, R106). -/
def owedAny (s : State) (p : PortId) : Bool :=
  (s.port p).quiesceOwed || (s.port p).resumeOwed ||
    (allEntries.any fun en => (s.entry en).owedCredit && (s.entry en).source == .port p) ||
    (s.trg.queue.any fun x => inSet x.owedPorts p.val) ||
    s.trg.history.any fun r => (r.forward.map fun f => inSet f.owedPorts p.val).getD false

/-- The drain condition (R91). -/
def drainDone (s : State) (p : PortId) : Bool :=
  !(allEntries.any fun en => (s.entry en).ring.any fun b => inSet b.pendPorts p.val) &&
    !(s.trg.queue.any fun x => inSet x.pendPorts p.val) &&
    (s.port p).timingQ.isEmpty && (s.port p).ctrlQ.isEmpty && (s.port p).flight.isNone && !owedAny s p

/-- The end of a drain (R91 to R93, R95): QUIESCED, with DRAINED (0) or TIMEOUT (1), or TRAINING if resume-pending is
set. Either way the port becomes dormant (R119). -/
def finishDrain (detail : Nat) (p : PortId) (s : State) : State :=
  if (s.port p).resumePending then
    let probe := (s.port p).resumeProbe
    streamsPortDormant p (peerResumes probe p s)
  else streamsPortDormant p (raiseNotice .portQuiesced p.val detail 0 (setLink p .quiesced s))

/-- DRAIN_COMPLETE (R91). -/
def execDrainComplete (p : PortId) (s : State) : Host.Outcome State Fault Refusal :=
  unlessReset s fun s => if (s.port p).link = .draining ∧ drainDone s p then finishDrain 0 p s else s

/-- What the drain timer clears (R92). -/
def clearDrain (p : PortId) (s : State) : State :=
  let s := (emptyQueues p s).updPort p fun q => { q with quiesceOwed := false }
  dropForwards p (streamsClearPort p (streamsPortDormant p s))

/-- The drain timer expires (R92). -/
def execDrainTimeout (p : PortId) (s : State) : Host.Outcome State Fault Refusal :=
  unlessReset s fun s => if (s.port p).link = .draining then finishDrain 1 p (clearDrain p s) else s

/-- A QUIESCE received (R78, R90). -/
def execQuiesceReceived (a : ArrivalPort) (s : State) : Host.Outcome State Fault Refusal :=
  unlessReset s fun s => whenBegun a (fun p s => if (s.port p).link = .active then enterDraining 1 p s else s) s

/-- A RESUME received, by the port's state (R78, R95). -/
def receiveResume (p : PortId) (s : State) : State :=
  match (s.port p).link with
  | .draining => setResumePending false p s
  | .quiesced => peerResumes false p s
  | _ => s

/-- A RESUME received (R78, R95). -/
def execResumeReceived (a : ArrivalPort) (s : State) : Host.Outcome State Fault Refusal :=
  unlessReset s fun s => whenBegun a receiveResume s

/-! ### Requests (R99 to R101) -/

/-- The settings a `port.cfg` gives, when they are in range (R99). -/
def portCfgSettings (r : PortCfgReq) (c : PortSettings) : Option PortSettings :=
  let n : PortSettings :=
    { debounce := (r.debounce.map (max 1)).getD c.debounce, signalWait := r.signalWait.getD c.signalWait
      grace := r.grace.getD c.grace, drainTimeout := r.drainTimeout.getD c.drainTimeout
      threshold := r.threshold.getD c.threshold, dmin := r.dmin.getD c.dmin, dmax := r.dmax.getD c.dmax }
  if optIn 0 255 r.debounce && optIn 10 5000 r.signalWait && optIn 0 1000 r.grace && optIn 1 65535 r.drainTimeout
      && optIn 1 255 r.threshold && optIn 0 Config.delayMax r.dmin && optIn 0 Config.delayMax r.dmax
      && decide (n.dmin ≤ n.dmax) then
    some n
  else none

/-- `port.cfg` (R99). -/
def execPortCfg (r : PortCfgReq) (s : State) : Host.Outcome State Fault Refusal :=
  unlessReset s fun s =>
    match portOf r.port with
    | none => s.refuse .badValue
    | some p =>
      match portCfgSettings r (s.port p).cfg with
      | none => s.refuse .badValue
      | some c => (s.updPort p fun q => { q with cfg := c }).accept

/-- `port.ctl` enable (R100). -/
def portEnable (p : PortId) (s : State) : State := if (s.port p).link = .disabled then enterEmpty p s else s

/-- `port.ctl` disable (R100). -/
def portDisable (p : PortId) (s : State) : State :=
  match (s.port p).link with
  | .active => teardown p (setLink p .disabled s)
  | .draining => teardown p (setLink p .disabled s)
  | .training => abandonTraining p (setLink p .disabled s)
  | .quiesced => emptyQueues p (setLink p .disabled s)
  | .disabled => s
  | _ => setLink p .disabled s

/-- A request over a port of the given number; an unknown port is refused (R100). -/
def overPort (port : Nat) (f : PortId → State → State) (s : State) : State :=
  match portOf port with
  | none => s.refuse .badValue
  | some p => f p s

/-- `port.ctl` enable (R100). -/
def execPortCtlEnable (port : Nat) (s : State) : Host.Outcome State Fault Refusal :=
  unlessReset s fun s => overPort port (fun p s => (portEnable p s).accept) s

/-- `port.ctl` disable (R100). -/
def execPortCtlDisable (port : Nat) (s : State) : Host.Outcome State Fault Refusal :=
  unlessReset s fun s => overPort port (fun p s => (portDisable p s).accept) s

/-- `port.ctl` drain, by the port's state (R89, R101). -/
def portDrain (p : PortId) (s : State) : State :=
  match (s.port p).link with
  | .active => (enterDraining 0 p (offerQuiesce p s)).accept
  | .draining => s.accept
  | .quiesced => s.accept
  | _ => s.refuse .state

/-- `port.ctl` drain (R101). -/
def execPortCtlDrain (port : Nat) (s : State) : Host.Outcome State Fault Refusal :=
  unlessReset s fun s => overPort port portDrain s

/-- The resume of a QUIESCED port: TRAINING, and a RESUME while the training lasts (R94). -/
def resumeQuiesced (p : PortId) (s : State) : State :=
  let s := enterTraining p s
  if (s.port p).link = .training then offerResume p s else s

/-- `port.ctl` resume, by the port's state (R88, R94, R101). -/
def portResume (p : PortId) (s : State) : State :=
  match (s.port p).link with
  | .quiesced => (resumeQuiesced p s).accept
  | .isolated => (if (s.port p).present then enterWaiting p s else setLink p .empty s).accept
  | _ => s.refuse .state

/-- `port.ctl` resume (R101). -/
def execPortCtlResume (port : Nat) (s : State) : Host.Outcome State Fault Refusal :=
  unlessReset s fun s => overPort port portResume s

/-- `port.ctl` retrain, by the port's state (R101). -/
def portRetrain (p : PortId) (s : State) : State :=
  match (s.port p).link with
  | .active => (enterTraining p (teardown p (setLink p .training s))).accept
  | .training => (enterTraining p s).accept
  | _ => s.refuse .state

/-- `port.ctl` retrain (R101). -/
def execPortCtlRetrain (port : Nat) (s : State) : Host.Outcome State Fault Refusal :=
  unlessReset s fun s => overPort port portRetrain s

end Sys2Proof.Machine
end

