-- ==== Sys2Proof/Machine/Slots.lean ====
section
/-! DEFINITION. The slots: presence, the sample clock, sample instants, sink playout, strobes, and the requests over them
(chapter 7). -/
namespace Sys2Proof.Machine

/-! ### Presence (R155 to R157) -/

/-- The debounce timer as loaded from the setting in force (R155). -/
def Slot.debounceLoad (q : Slot) : Nat := q.cfg.debounce * Config.ticksPerMs

/-- Sn_PRESENT rises (R156). -/
def execSlotPresentRise (k : SlotId) (s : State) : Host.Outcome State Fault Refusal :=
  unlessReset (s.updSlot k fun q => { q with present := true }) fun s => s.updSlot k fun q =>
    if q.presence = .empty then { q with presence := .settling, debounce := some q.debounceLoad } else q

/-- The debounce timer of a slot expires (R156). A dormant sink becomes live by the state of its slot alone (R157). -/
def execSlotDebounceExpiry (k : SlotId) (s : State) : Host.Outcome State Fault Refusal :=
  unlessReset s fun s =>
    if (s.slot k).presence = .settling then
      raiseNotice .slotInserted k.val 0 0 (s.updSlot k fun q => { q with presence := .present, debounce := none })
    else s

/-- What a slot is bound to: NONE, SOURCE, SINK or BOTH (R156, R211). -/
def boundCode (s : State) (k : SlotId) : Nat :=
  (if (sourceEntry s k).isSome then 1 else 0) + (if (sinkEntry s k).isSome then 2 else 0)

/-- Departure from PRESENT (R157): the notice, the source entry, the slot itself, the sink entry. -/
def slotDeparts (k : SlotId) (s : State) : State :=
  let s := sourceLost k (raiseNotice .slotRemoved k.val (boundCode s k) 0 s)
  let s := s.updSlot k fun q =>
    { q with
      presence := .empty, debounce := none, presenting := none, playingFlag := false, underrun := false
      head := none, sclkEdge := false, trigPulse := false, strobePulse := false }
  match sinkEntry s k with
  | none => s
  | some en => clearSlot en k s

/-- Sn_PRESENT falls (R156, R157). -/
def execSlotPresentFall (k : SlotId) (s : State) : Host.Outcome State Fault Refusal :=
  unlessReset (s.updSlot k fun q => { q with present := false }) fun s =>
    match (s.slot k).presence with
    | .empty => s
    | .settling => s.updSlot k fun q => { q with presence := .empty, debounce := none }
    | .present => slotDeparts k s

/-! ### The source side (R161) -/

def Slot.count (f : SlotCounters → SlotCounters) (q : Slot) : Slot := { q with counters := f q.counters }

/-- What a source slot does at a sample instant `t` (R131, R161): it reads the module, or holds the sample. -/
def sourceInstant (k : SlotId) (t : Tick) (valid : Bool) (data : BitVec 32) (s : State) : State :=
  match sourceEntry s k with
  | none => s
  | some en =>
    let e := s.entry en
    if e.state ≠ .running ∧ e.state ≠ .stalled then s
    else if e.awaitBoundary then s
    else if e.hold then s.updSlot k (Slot.count fun c => { c with heldInstants := c.heldInstants + 1 })
    else
      offerSample en t valid data (s.updSlot k (Slot.count fun c =>
        if valid then { c with validReads := c.validReads + 1 } else { c with invalidReads := c.invalidReads + 1 }))

/-! ### Sink playout (R162 to R165) -/

/-- The head of a sink and the blocks behind it: the closed blocks pending for the slot, oldest first (R162). -/
def pendingForSlot (e : Entry) (k : SlotId) : List Block :=
  e.ring.filter fun b => !b.isOpen && inSet b.pendSlots k.val

/-- Present sample number `n` of a block (R163); at its last sample the presentation ends and the entry clears the
slot's mark. -/
def presentSample (en : EntryId) (k : SlotId) (b : Block) (n : Nat) (s : State) : State :=
  let w := (s.entry en).width
  let v := ofBytes (Memory.readBytes s.buffer (slotAddress b.slot + n * w) w)
  let s := s.updSlot k fun q =>
    { q with
      lastValue := BitVec.ofNat 32 v, lastWidth := w, playingFlag := true, underrun := false
      presenting := some (b.seq, n + 1), counters := { q.counters with samplesOut := q.counters.samplesOut + 1 } }
  if b.len ≤ (n + 1) * w then
    clearBlockSlot en b.seq k (s.updSlot k fun q =>
      { q with presenting := none, counters := { q.counters with blocksOut := q.counters.blocksOut + 1 } })
  else s

/-- The next sample of the block being presented (R163). -/
def continueBlock (en : EntryId) (k : SlotId) (sq : Seq) (n : Nat) (s : State) : State :=
  match (s.entry en).ring.find? fun b => b.seq == sq with
  | none => s.updSlot k fun q => { q with presenting := none }
  | some b => presentSample en k b n s

/-- A late discard (R145, R162). -/
def lateDiscard (en : EntryId) (k : SlotId) (sq : Seq) (s : State) : State :=
  clearBlockSlot en sq k (s.updEntry en fun e =>
    { e with counters := { e.counters with late := e.counters.late.set k (e.counters.late[k] + 1) } })

/-- Judge the heads of a sink at the instant `t`, oldest first, until one waits or is presented (R162); the answer's
second part says whether a sample was presented. -/
def judgeHeads (en : EntryId) (k : SlotId) (t : Tick) : List Block → State → State × Bool
  | [], s => (s, false)
  | b :: bs, s =>
    let q := s.slot k
    let p := presentationInstant (b.stamp + BitVec.ofNat 56 (s.entry en).latency) q.divider q.phase
    let s := s.updSlot k fun q => { q with head := some (b.seq, p) }
    if p = t then (presentSample en k b 0 (s.updSlot k fun q => { q with lastBegun := b.seq }), true)
    else if inFuture p t then (s, false)
    else judgeHeads en k t bs (lateDiscard en k b.seq s)

/-- The start of an underrun episode, at an instant with nothing presented (R164). -/
def judgeUnderrun (k : SlotId) (rackId : Nat) (s : State) : State :=
  let q := s.slot k
  if q.playingFlag ∧ !q.underrun then
    raiseNotice .sinkUnderrun k.val rackId q.lastBegun.toNat (s.updSlot k fun q =>
      { q with underrun := true, counters := { q.counters with underruns := q.counters.underruns + 1 } })
  else s

/-- What a sink slot does at a sample instant `t` (R162 to R165). DESIGN CHOICE (log 62): an entry that was READY only between
two sample instants leaves the playing flag set, by the first bullet of R164, so an underrun may follow. -/
def sinkInstant (k : SlotId) (t : Tick) (s : State) : State :=
  match sinkEntry s k with
  | none => s
  | some en =>
    let e := s.entry en
    match (s.slot k).presenting with
    | some (sq, n) =>
      let s := continueBlock en k sq n s
      if e.state = .ready then s.updSlot k fun q => { q with playingFlag := false } else s
    | none =>
      if e.state = .ready then s.updSlot k fun q => { q with playingFlag := false }
      else
        let r := judgeHeads en k t (pendingForSlot e k) s
        if r.2 then r.1 else judgeUnderrun k e.rackId r.1

/-- The sample instant that the present advance makes: the value of the slot's grid it passed (R158). -/
def instantOf (s : State) (k : SlotId) : Tick :=
  (gridPassed s.tb.advFrom s.now (s.slot k).divider (s.slot k).phase).getD s.now

/-- SAMPLE_INSTANT (R158): the count and the clock edge, then the source side, then the sink side. -/
def sampleInstant (k : SlotId) (valid : Bool) (data : BitVec 32) (s : State) : State :=
  let t := instantOf s k
  let s := s.updTb fun b => { b with dueSample := withoutBit b.dueSample k.val }
  if (s.slot k).divider = 0 then s
  else
    let s := s.updSlot k (Slot.count fun c => { c with instants := c.instants + 1 })
    if (s.slot k).presence = .present then
      sinkInstant k t (sourceInstant k t valid data (s.updSlot k fun q => { q with sclkEdge := true }))
    else s

/-- SAMPLE_INSTANT (R158). -/
def execSampleInstant (k : SlotId) (valid : Bool) (data : BitVec 32) (s : State) :
    Host.Outcome State Fault Refusal := unlessReset s fun s => sampleInstant k valid data s

/-! ### The epoch boundary (R160, R166) -/

/-- Whether the present advance passed a sample instant of a slot, by its clock in force. -/
def dueInstant (tb : Timebase) (q : Slot) (now : Tick) : Bool :=
  (gridPassed tb.advFrom now q.divider q.phase).isSome

/-- The staged clock of a slot at a boundary (R160): it comes into force, from this advance on, or is dropped. DESIGN CHOICE:
whether this advance owes the slot an instant is decided anew, by the new clock alone. So where a step was taken since the
advance, which is then no longer at hand, the slot has no instant of it (log 69); and where the old clock's instant of the
advance had already been taken, before the `slot.clk`, the new clock may make a second one (log 70). -/
def slotBoundary (k : SlotId) (s : State) : State :=
  match (s.slot k).stagedClk with
  | none => s
  | some (div, phi) =>
    if div = 0 ∨ s.tb.epoch % div = 0 then
      let s := s.updSlot k fun q => { q with divider := div, phase := phi, stagedClk := none }
      s.updTb fun t =>
        { t with
          dueSample :=
            if dueInstant t (s.slot k) s.now then withBit t.dueSample k.val else withoutBit t.dueSample k.val }
    else
      raiseNotice .clockDropped k.val div s.tb.epoch (s.updSlot k fun q => { q with stagedClk := none })

/-- The strobe of a slot at a boundary (R166). -/
def strobeBoundary (k : SlotId) (s : State) : State := if (s.slot k).cfg.strobe = .off then s else strobe k s

/-! ### Requests (R159, R169) -/

/-- The divider that will be in force on a slot after the next boundary (R4, R159). -/
def nextDivider (q : Slot) : Nat := (q.stagedClk.map (·.1)).getD q.divider

/-- The E that will be in force after the next boundary (R4, R159). -/
def nextEpoch (t : Timebase) : Nat := t.epochStaged.getD t.epoch

/-- Whether an entry is in RUNNING, STALLED or CLOSING. -/
def engaged (e : Entry) : Bool := e.state == .running || e.state == .stalled || e.state == .closing

/-- Whether a slot is bound, as source or as sink, to an entry in RUNNING, STALLED or CLOSING (R4, R159). -/
def boundEngaged (s : State) (k : SlotId) : Bool :=
  allEntries.any fun en =>
    engaged (s.entry en) && ((s.entry en).source == .slot k || inSet (s.entry en).destSlots k.val)

/-- `slot.cfg` (R169). -/
def execSlotCfg (r : SlotCfgReq) (s : State) : Host.Outcome State Fault Refusal :=
  unlessReset s fun s =>
    match slotOf r.slot with
    | none => s.refuse .badValue
    | some k =>
      let mode := match r.strobe with
        | none => some (s.slot k).cfg.strobe
        | some v => StrobeMode.ofCode v
      match mode with
      | none => s.refuse .badValue
      | some m =>
        if optIn 0 255 r.debounce then
          (s.updSlot k fun q =>
            { q with cfg :=
              { debounce := (r.debounce.map (max 1)).getD q.cfg.debounce, strobe := m
                subscription := r.subscription.getD q.cfg.subscription } }).accept
        else s.refuse .badValue

/-- The range check of `slot.clk` (R159). -/
def clockInRange (div phi : Nat) : Bool :=
  if div = 0 then phi == 0 else decide (2 ≤ div) && decide (div ≤ 65536) && decide (phi < div)

/-- `slot.clk` (R159). DESIGN CHOICE (log 58): a request that carries neither a divider nor a phase is taken like any other, with
both from the staged clock, or from the clock in force. -/
def execSlotClk (r : SlotClkReq) (s : State) : Host.Outcome State Fault Refusal :=
  unlessReset s fun s =>
    match slotOf r.slot with
    | none => s.refuse .badValue
    | some k =>
      let q := s.slot k
      let base := q.stagedClk.getD (q.divider, q.phase)
      let div := r.divider.getD base.1
      let phi := r.phase.getD base.2
      if !clockInRange div phi then s.refuse .badValue
      else if div ≠ nextDivider q ∧ boundEngaged s k then s.refuse .state
      else if div ≠ 0 ∧ nextEpoch s.tb % div ≠ 0 then s.refuse .divider
      else if div = q.divider ∧ phi = q.phase then (s.updSlot k fun q => { q with stagedClk := none }).accept
      else (s.updSlot k fun q => { q with stagedClk := some (div, phi) }).reply .staged []

end Sys2Proof.Machine
end

