-- ==== Sys2Proof/Machine/Boundary.lean ====
section
/-! DEFINITION. The oscillator tick, and the epoch boundary with the work of every block in the order of log 11. -/
namespace Sys2Proof.Machine

/-! ### The oscillator tick (R1, R71, R155) -/

/-- A timer counts down one oscillator tick. At 0 it has run out and waits for its event to be taken (log 1). -/
def countDown (t : Option Nat) : Option Nat := t.map (· - 1)

/-- The timers of a port (R71). -/
def Port.tick (q : Port) : Port :=
  { q with
    debounce := countDown q.debounce, signalWait := countDown q.signalWait, grace := countDown q.grace
    drain := countDown q.drain }

/-- The timer of a slot (R155), and the end of its one-tick outputs (R158, R166, R168). -/
def Slot.tick (q : Slot) : Slot :=
  { q with debounce := countDown q.debounce, sclkEdge := false, trigPulse := false, strobePulse := false }

/-- The waiting marks that no block took by the end of the tick are dropped (R182). -/
def Entry.tick (e : Entry) : Entry := { e with waiting := [] }

/-- One oscillator tick of the timebase: G/E sub-ticks, with the remainder carried (R1); the silence timer counts
down (R18). -/
def Timebase.advance (t : Timebase) : Timebase :=
  let acc := t.remainder + t.gain
  { t with
    reading := t.reading + BitVec.ofNat 64 (acc / t.epoch), remainder := acc % t.epoch
    silence := countDown t.silence, advFrom := wholeTicks t.reading }

/-- Record what the advance passed: an epoch boundary (R2), and the sample instants of slots (R158). -/
def recordDue (s : State) : State :=
  s.updTb fun t =>
    { t with
      dueBoundary := t.dueBoundary || (gridPassed t.advFrom s.now t.epoch 0).isSome
      dueSample := t.dueSample ||| slotSet fun k => dueInstant t (s.slot k) s.now }

/-- OSCILLATOR_TICK (R1). -/
def execOscillatorTick (s : State) : Host.Outcome State Fault Refusal :=
  unlessReset s fun s => recordDue
    { s with
      tb := s.tb.advance, ports := s.ports.map Port.tick, slots := s.slots.map Slot.tick
      entries := s.entries.map Entry.tick }

/-! ### The epoch boundary (R2) -/

/-- The judgement of the credit timeout for every entry and destination port (R117): the state, and the QUERY cells
that fall due. -/
def judgeCredits (s : State) : State × List (EntryId × PortId) :=
  allEntries.foldl (fun r en =>
    allPorts.foldl (fun (r : State × List (EntryId × PortId)) p =>
      let j := judgeCredit en p r.1
      (j.1, if j.2 then r.2 ++ [(en, p)] else r.2)) r) (s, [])

/-- An owed QUIESCE, when the port is DRAINING and has room (R89, R107). -/
def placeQuiesce (p : PortId) (s : State) : State :=
  let q := s.port p
  if q.quiesceOwed ∧ q.link = .draining ∧ ctrlRoom q then
    (pushControl p .quiesce s).updPort p fun q => { q with quiesceOwed := false }
  else s

/-- An owed RESUME, when the port is TRAINING and has room (R103, R107). -/
def placeResume (p : PortId) (s : State) : State :=
  let q := s.port p
  if q.resumeOwed ∧ q.link = .training ∧ ctrlRoom q then
    (pushControl p .resume s).updPort p fun q => { q with resumeOwed := false }
  else s

/-- The owed CREDIT cells of the entries whose source is a port, in entry order (R107). -/
def placeCredits (p : PortId) (s : State) : State :=
  forEntries (fun en s =>
    if (s.entry en).owedCredit && (s.entry en).source == .port p then offerCredit en p s else s) s

/-- The QUERY cells due for a port, in entry order (R107, R117). -/
def placeQueries (due : List (EntryId × PortId)) (p : PortId) (s : State) : State :=
  due.foldl (fun s d => if d.2 = p then placeQuery d.1 p s else s) s

/-- Place a port's owed control cells (R107). -/
def placeOwed (due : List (EntryId × PortId)) (p : PortId) (s : State) : State :=
  let l := (s.port p).link
  if l = .training ∨ l = .active ∨ l = .draining then
    placeOwedHistory p (placeOwedQueue p (placeQueries due p (placeCredits p (placeResume p (placeQuiesce p s)))))
  else s

/-- The link ports and cell transmission at a boundary: score decay, training, the credit timeout, owed cells, and owed
flags that no longer apply. -/
def portsBoundary (s : State) : State :=
  let s := forPorts trainingBoundary (forPorts decayScore s)
  let r := judgeCredits s
  forPorts expireOwed (forPorts (placeOwed r.2) r.1)

/-- EPOCH_BOUNDARY (R2): the timebase unit, the origin unit, the ports, the stream table, and the slots. -/
def epochBoundary (s : State) : State :=
  let s := portsBoundary (originBoundary (timebaseBoundary s))
  let s := forSlots strobeBoundary (forSlots slotBoundary (forEntries streamBoundary s))
  s.updTb fun t => { t with dueBoundary := false }

/-- EPOCH_BOUNDARY (R2). -/
def execEpochBoundary (s : State) : Host.Outcome State Fault Refusal := unlessReset s fun s => epochBoundary s

end Sys2Proof.Machine
end

