-- ==== Sys2Proof/Machine/Xmit.lean ====
section
/-! DEFINITION. Cell transmission: the stream arbiter, departures and completions, and the settings request
(chapter 5). -/
namespace Sys2Proof.Machine

/-! ### The stream arbiter (R112, R113) -/

/-- A stream entry is a candidate for a port (R112). -/
def candidate (s : State) (p : PortId) (en : EntryId) : Bool :=
  let e := s.entry en
  (e.state == .running || e.state == .stalled || e.state == .closing) &&
    match oldestPending e p with
    | none => false
    | some b => e.mode == .live || !creditBlocked e.credit[p] b

/-- Level 1: the positions after the pointer, wrapping from 32 to 0 (R113). -/
def level1Order (ptr : Nat) : List Nat := (List.range 33).map fun i => (ptr + 1 + i) % 33

/-- Level 2: the entries after the pointer, wrapping from 31 to 0 (R113). -/
def level2Order (ptr : Nat) : List Nat := (List.range 32).map fun i => (ptr + 1 + i) % 32

/-- A candidate entry with the given priority flag, at a position. -/
def candidateAt (s : State) (p : PortId) (priority : Bool) (i : Nat) : Option EntryId :=
  match entryOf i with
  | none => none
  | some en => if candidate s p en && (s.entry en).priority == priority then some en else none

/-- The grant of level 2: the first candidate without the priority flag after the level-2 pointer (R113). -/
def level2Grant (s : State) (p : PortId) : Option EntryId :=
  (level2Order (s.port p).level2).findSome? (candidateAt s p false)

/-- The grant of the arbiter: the entry, and the two pointers as its departure leaves them (R113). -/
def arbiterGrant (s : State) (p : PortId) : Option (EntryId × Nat × Nat) :=
  (level1Order (s.port p).level1).findSome? fun i =>
    if i = 32 then (level2Grant s p).map fun en => (en, 32, en.val)
    else (candidateAt s p true i).map fun en => (en, i, (s.port p).level2)

/-! ### Departure (R6, R77, R80, R81, R104, R108, R109) -/

/-- The hop count a MARKER carries (R6). -/
def markerHopSent (s : State) : Nat :=
  match s.tb.role, s.tb.servo, s.tb.ref with
  | .root, _, _ => 0
  | .member, .track, some r => min 31 (markerHop (s.port r) + 1)
  | .member, _, _ => 31

/-- The sender's upstream frame a MARKER carries (R6). -/
def markerUpstream (s : State) : Nat :=
  match s.tb.role, s.tb.ref with
  | .root, _ => 0
  | .member, some r => (s.port r).peer
  | .member, none => 0

/-- A MARKER as it departs now (R6). -/
def markerNow (s : State) : MarkerCell :=
  { sender := s.mgmt.frame, hop := markerHopSent s, grade := s.win.grade.on, aligned := alignedSeen s,
    upstream := markerUpstream s, epoch := s.tb.epoch, stamp := s.tb.reading }

/-- A timing cell as it departs now (R6, R80, R81). -/
def timingCellNow (s : State) : TimingCell → Cell
  | .marker => .marker (markerNow s)
  | .probe sender attempt index => .probe { sender := sender, attempt := attempt, index := index, t1 := s.tb.reading }
  | .echo responder sender attempt index t2 =>
    .echo { responder := responder, sender := sender, attempt := attempt, index := index, t2 := t2, t3 := s.tb.reading }

/-- Whether the window of a departing PROBE of the attempt under way is open: it has not closed at a boundary that found no
room for the next one (R82). The queue is the one that the PROBE has left. -/
def windowOpen (q : Port) (attempt index : Nat) : Bool :=
  q.train.probeCount == index ||
    q.timingQ.any fun c =>
      match c with
      | .probe _ a i => a == attempt && i == index + 1
      | _ => false

/-- The training record after the departure of a PROBE at a reading (R80, R82). One that an earlier run of the training left
in the queue, and one of an attempt that is over, leave the outstanding probe alone (log 38). Any other closes the window of
the probe before it, and becomes the outstanding probe itself if its own window is open. -/
def probeLeaves (reading : SubTick) (q : Port) (attempt index : Nat) : Training :=
  if 0 < q.train.earlier then { q.train with earlier := q.train.earlier - 1 }
  else if q.link = .training ∧ q.train.attempt = attempt then
    { q.train with outstanding := if windowOpen q attempt index then some (index, reading) else none }
  else q.train

/-- A port's record after the departure of a timing cell at a reading. -/
def probeDeparts (reading : SubTick) (c : TimingCell) (q : Port) : Port :=
  match c with
  | .probe _ attempt index => { q with train := probeLeaves reading q attempt index }
  | _ => q

/-- The oldest timing cell departs. -/
def departTiming (p : PortId) (c : TimingCell) (rest : List TimingCell) (s : State) : State :=
  s.updPort p fun q =>
    probeDeparts s.tb.reading c
      { q with
        timingQ := rest, startedTiming := q.startedTiming + 1
        flight := some { cell := timingCellNow s c, entry := none, stale := false } }

/-- A control cell as it departs now, and the stream entry it belongs to (R104). -/
def controlCellNow (s : State) : ControlCell → Cell × Option EntryId
  | .credit en => (.credit { rackId := (s.entry en).rackId, limit := computedLimit (s.entry en) }, some en)
  | .query en => (.query (s.entry en).rackId, some en)
  | .trigger c => (.trigger c, none)
  | .cancel c => (.cancel c, none)
  | .quiesce => (.quiesce, none)
  | .resume => (.resume, none)

/-- What the departure of a control cell is reported for (R109). -/
def reportControl (p : PortId) (c : ControlCell) (s : State) : State :=
  match c with
  | .credit en => s.updEntry en fun e => { e with lastAdv := some (computedLimit e) }
  | .query _ => s
  | .trigger t => reportDeparture t.id p s
  | .cancel t => reportDeparture t.id p s
  | .quiesce => s
  | .resume => s

/-- The oldest control cell departs. -/
def departControl (p : PortId) (c : ControlCell) (rest : List ControlCell) (s : State) : State :=
  let r := controlCellNow s c
  reportControl p c (s.updPort p fun q =>
    { q with
      ctrlQ := rest, startedControl := q.startedControl + 1
      flight := some { cell := r.1, entry := r.2, stale := false } })

/-- The SAMPLE cell of a block (R104). -/
def sampleCellOf (s : State) (e : Entry) (b : Block) : SampleCell :=
  { rackId := e.rackId, seq := b.seq, stamp := b.stamp, trusted := b.trusted, disc := b.disc, short := b.short,
    mark := b.mark, extraMarks := b.extraMarks, payload := Memory.readBytes s.buffer (slotAddress b.slot) b.len }

/-- The stream arbiter's grant departs (R109, R113). -/
def departSample (p : PortId) (s : State) : State :=
  match arbiterGrant s p with
  | none => s
  | some (en, l1, l2) =>
    match oldestPending (s.entry en) p with
    | none => s
    | some b =>
      s.updPort p fun q =>
        { q with
          level1 := l1, level2 := l2, startedSample := q.startedSample + 1
          flight := some { cell := .sample (sampleCellOf s (s.entry en) b), entry := some en, stale := false } }

/-- The start of a port's next cell, by class order (R77, R108). -/
def cellDeparture (p : PortId) (s : State) : State :=
  let q := s.port p
  let sends := q.link == .training || q.link == .active || q.link == .draining || q.link == .quiesced
  if !sends || q.flight.isSome then s
  else
    match q.timingQ with
    | c :: rest => departTiming p c rest s
    | [] =>
      if q.link = .quiesced then s
      else
        match q.ctrlQ with
        | c :: rest => departControl p c rest s
        | [] => if q.link = .active ∨ q.link = .draining then departSample p s else s

/-- CELL_DEPARTURE (R109). -/
def execCellDeparture (p : PortId) (s : State) : Host.Outcome State Fault Refusal :=
  unlessReset s fun s => cellDeparture p s

/-! ### Completion (R110) -/

/-- The completion of the cell in flight: the port becomes free, and a SAMPLE that is not stale clears its block's
mark. -/
def cellCompletion (p : PortId) (s : State) : State :=
  match (s.port p).flight with
  | none => s
  | some f =>
    let s := s.updPort p fun q => { q with flight := none }
    match f.cell, f.entry with
    | .sample c, some en => if f.stale then s else clearBlockPort en c.seq p s
    | _, _ => s

/-- CELL_COMPLETION (R110). -/
def execCellCompletion (p : PortId) (s : State) : Host.Outcome State Fault Refusal :=
  unlessReset s fun s => cellCompletion p s

/-! ### Settings (R122) -/

/-- `xmit.cfg` (R122). DESIGN CHOICE (log 58): a request that carries neither field is accepted and changes nothing. -/
def execXmitCfg (creditTimeout retryLimit : Option Nat) (s : State) : Host.Outcome State Fault Refusal :=
  unlessReset s fun s =>
    if optIn 0 255 creditTimeout && optIn 0 15 retryLimit then
      State.accept { s with xmit :=
        { creditTimeout := creditTimeout.getD s.xmit.creditTimeout, retryLimit := retryLimit.getD s.xmit.retryLimit } }
    else s.refuse .badValue

end Sys2Proof.Machine
end

