-- ==== Sys2Proof/Machine/Readouts.lean ====
section
/-! DEFINITION. The reply bodies of the status requests, field by field as R209 lays them out. Absent items follow
log 13. -/
namespace Sys2Proof.Machine

/-! ### Pieces of a reply body -/

/-- One byte holding a small number. -/
def byteOf (n : Nat) : List Byte := [BitVec.ofNat 8 n]

/-- A boolean of one byte. -/
def flagOf (b : Bool) : List Byte := [boolByte b]

/-- An item that may be none: a presence byte, then the item, or as many zeros (R209). -/
def presence (width : Nat) : Option (List Byte) → List Byte
  | some bs => 1 :: bs
  | none => 0 :: List.replicate width 0

/-- A reading in sub-ticks: 8 bytes (10_formats.md). -/
def readingBytes (r : SubTick) : List Byte := beBytes 8 r.toNat

/-- A time in whole ticks: 7 bytes (10_formats.md). -/
def tickBytes (t : Tick) : List Byte := beBytes 7 t.toNat

def ctrBytes (c : Ctr) : List Byte := beBytes 4 c.toNat

def seqBytes (q : Seq) : List Byte := beBytes 2 q.toNat

/-- A timer in milliseconds. A part of a millisecond rounds down or up, as `Config.readoutRoundsUp` has it (log 9). -/
def msOf (ticks : Nat) : Nat :=
  let ms := ticks / Config.ticksPerMs
  if ticks % Config.ticksPerMs ≠ 0 ∧ Config.readoutRoundsUp ticks then ms + 1 else ms

/-- A set of destinations: the ports, then the slots (10_formats.md). -/
def destBytes (ports : Set4) (slots : Set8) : List Byte := [ports.zeroExtend 8, slots]

/-! ### Timebase (R32) -/

/-- The ten `tb.cfg` fields in mask order (R209). DESIGN CHOICE (log 53): the E among them is the one in force; `tb.stat` has
an item of its own for a staged one (R32). -/
def tbCfgBody (t : Timebase) : List Byte :=
  byteOf t.role.code ++ beBytes 4 t.epoch ++ beBytes 4 t.params.tstep ++ byteOf t.params.p ++ byteOf t.params.i
    ++ beBytes 2 t.params.fmax ++ beBytes 2 t.params.smax ++ beBytes 2 t.params.spacingTol
    ++ flagOf t.params.autoRecover ++ beBytes 2 t.params.holdoverLimit

/-- The body of `tb.stat` (R32, R209). -/
def tbStatBody (s : State) : List Byte :=
  let t := s.tb
  byteOf t.role.code ++ byteOf t.servo.code ++ beSigned 4 t.freq ++ beSigned 4 t.slew ++ beBytes 5 t.gain
    ++ beSigned 4 t.lastE ++ [portByte t.ref] ++ byteOf t.refMode.code ++ [portByte t.chosen] ++ byteOf t.excursions
    ++ byteOf t.goodSpacings ++ beBytes 2 t.holdoverCount ++ ctrBytes t.stepCount ++ beBytes 4 t.epoch
    ++ presence 4 (t.epochStaged.map (beBytes 4)) ++ flagOf (alignedSeen s) ++ tbCfgBody t

/-! ### Windows (R53) -/

/-- A window setting: lower, upper, in use, notice option. -/
def winSettingBody (w : WinSetting) : List Byte :=
  beSigned 4 w.lower ++ beSigned 4 w.upper ++ flagOf w.inUse ++ byteOf w.notice.code

def bandBody (b : Option Int) : List Byte := presence 4 (b.map (beSigned 4))

def windowBody (w : Window) : List Byte :=
  winSettingBody w.inForce ++ presence 10 (w.staged.map winSettingBody) ++ flagOf w.inside ++ flagOf w.reported
    ++ bandBody w.band

def qualBody (q : Qualifier) : List Byte :=
  byteOf q.mode.code ++ [q.coupled.zeroExtend 8]
    ++ [flagsByte [q.clearOnExit, q.entryOnly, q.dropOnFault, q.originRequired]] ++ flagOf q.on ++ bandBody q.band

/-- The body of `win.stat` (R53, R209). -/
def winStatBody (u : WindowUnit) : List Byte :=
  (allWins.flatMap fun w => windowBody u.wins[w]) ++ beBytes 2 u.hyst ++ flagOf u.prevValid ++ beSigned 4 u.prevE
    ++ presence 6 (u.lastEval.map fun r => beSigned 4 r.e ++ byteOf r.servo.code ++ flagOf r.stepped)
    ++ qualBody u.stamp ++ qualBody u.grade ++ flagOf u.limitFlag

/-! ### Origin (R69) -/

/-- The body of `org.stat` (R69, R209). -/
def orgStatBody (s : State) : List Byte :=
  let o := s.org
  byteOf o.state.code ++ tickBytes o.value ++ beBytes 4 o.period ++ beBytes 2 o.tolerance ++ byteOf o.settleLen
    ++ byteOf o.settleCtr ++ [flagsByte [o.pulseSeen, o.disarmPending, o.aligned, o.startLevel, alignedSeen s]]
    ++ presence 8 (o.lastArrival.map readingBytes) ++ presence 4 (o.deviation.map (beSigned 4)) ++ ctrBytes o.pulseCount

/-! ### Ports (R102) -/

/-- The running timer of a port and its ticks left: debounce (0), signal wait (1), grace (2), drain (3). -/
def runningTimer (q : Port) : Option (Nat × Nat) :=
  match q.debounce, q.signalWait, q.grace, q.drain with
  | some t, _, _, _ => some (0, t)
  | _, some t, _, _ => some (1, t)
  | _, _, some t, _ => some (2, t)
  | _, _, _, some t => some (3, t)
  | _, _, _, _ => none

def timerBody : Option (Nat × Nat) → List Byte
  | some (c, t) => byteOf c ++ beBytes 2 (msOf t)
  | none => byteOf noneCode ++ beBytes 2 0

/-- The last-marker summary of a port. -/
def markerBody (q : Port) : List Byte :=
  match q.marker with
  | some m =>
    [flagsByte [true, m.grade, m.aligned, q.mismatch]] ++ byteOf m.age ++ byteOf m.sender ++ byteOf m.hop
      ++ byteOf m.upstream ++ beBytes 4 m.epoch
  | none => [flagsByte [false, false, false, q.mismatch]] ++ List.replicate 8 0

/-- The training record as `port.stat` shows it. DESIGN CHOICE (log 60): in the byte of the valid-RT set, probe 1 is bit 0 and
probe 8 is bit 7; R209 numbers the probes from 1 and no bit for them. -/
def trainingBody (t : Training) : List Byte :=
  byteOf t.attempt ++ byteOf t.probeCount ++ [flagsByte (t.rts.toList.map (·.isSome))]
    ++ (t.rts.toList.flatMap fun r => beBytes 3 (r.getD 0)) ++ beBytes 3 t.dmin ++ beBytes 3 t.dmax

/-- The body of `port.stat` (R102, R209). -/
def portStatBody (q : Port) : List Byte :=
  byteOf q.link.code ++ byteOf q.cause.code ++ beBytes 3 q.delay ++ byteOf q.peer ++ byteOf q.score
    ++ trainingBody q.train ++ [flagsByte [q.resumePending, q.quiesceOwed, q.present, q.signal]]
    ++ timerBody (runningTimer q) ++ ctrBytes q.badCrc ++ ctrBytes q.unknownStream ++ markerBody q

/-! ### Transmission (R123) -/

/-- The cell kind codes of R207. -/
def Cell.kindCode : Cell → Nat
  | .marker _ => 0x01 | .probe _ => 0x02 | .echo _ => 0x03 | .credit _ => 0x10 | .query _ => 0x11 | .trigger _ => 0x12
  | .cancel _ => 0x13 | .quiesce => 0x14 | .resume => 0x15 | .sample _ => 0x20

def TimingCell.kindCode : TimingCell → Nat
  | .marker => 0x01 | .probe _ _ _ => 0x02 | .echo _ _ _ _ _ => 0x03

/-- A waiting control cell: its kind, and its rack id or trigger id. -/
def controlItem (s : State) : ControlCell → List Byte
  | .credit en => byteOf 0x10 ++ beBytes 2 (s.entry en).rackId
  | .query en => byteOf 0x11 ++ beBytes 2 (s.entry en).rackId
  | .trigger c => byteOf 0x12 ++ beBytes 2 c.id.toNat
  | .cancel c => byteOf 0x13 ++ beBytes 2 c.id.toNat
  | .quiesce => byteOf 0x14 ++ beBytes 2 0
  | .resume => byteOf 0x15 ++ beBytes 2 0

/-- The cell in flight: kind, and for a SAMPLE the rack id, the sequence and the stale mark. -/
def flightBody : Option Flight → List Byte
  | none => byteOf noneCode ++ List.replicate 5 0
  | some f =>
    match f.cell with
    | .sample c => byteOf 0x20 ++ beBytes 2 c.rackId ++ seqBytes c.seq ++ flagOf f.stale
    | c => byteOf (Cell.kindCode c) ++ List.replicate 5 0

/-- The rack ids of the entries whose CREDIT is owed to a port, in entry order. -/
def owedCredits (s : State) (p : PortId) : List Nat :=
  (allEntries.filter fun en => (s.entry en).owedCredit && (s.entry en).source == .port p).map fun en =>
    (s.entry en).rackId

/-- The body of `xmit.stat` (R123, R209). -/
def xmitStatBody (s : State) (p : PortId) : List Byte :=
  let q := s.port p
  byteOf q.timingQ.length ++ (q.timingQ.flatMap fun c => byteOf c.kindCode)
    ++ List.replicate (Config.timingDepth - q.timingQ.length) 0xFF
    ++ byteOf q.ctrlQ.length ++ q.ctrlQ.flatMap (controlItem s)
    ++ ((List.replicate (Config.controlDepth - q.ctrlQ.length) [0xFF, 0, 0]).flatten : List Byte)
    ++ flightBody q.flight ++ byteOf q.level1 ++ byteOf q.level2 ++ [flagsByte [q.quiesceOwed, q.resumeOwed]]
    ++ ctrBytes q.startedTiming ++ ctrBytes q.startedControl ++ ctrBytes q.startedSample ++ ctrBytes q.timingRefused
    ++ ctrBytes q.markerReplaced ++ ctrBytes q.abandoned ++ ctrBytes q.unknownStream ++ byteOf s.xmit.creditTimeout
    ++ byteOf s.xmit.retryLimit ++ byteOf (owedCredits s p).length ++ (owedCredits s p).flatMap (beBytes 2)

/-! ### Streams (R153) -/

/-- The condition of a destination port: live (0), dormant (1), abandoned (2), or not in the set (R129, R209). -/
def portCondition (s : State) (e : Entry) (p : PortId) : Nat :=
  if !inSet e.destPorts p.val then noneCode
  else if inSet e.abandonedPorts p.val then 2
  else if inService (s.port p) then 0
  else 1

/-- The condition of a destination slot. -/
def slotCondition (s : State) (e : Entry) (k : SlotId) : Nat :=
  if !inSet e.destSlots k.val then noneCode else if (s.slot k).presence = .present then 0 else 1

/-- The open block of an entry, in its ring or outside it. -/
def openBlockOf (e : Entry) : Option Block := e.outside.or (e.ring.find? (·.isOpen))

/-- The oldest and the newest sequence held. -/
def heldEnds (e : Entry) : Option (Seq × Seq) :=
  match e.ring.head?, e.ring.getLast? with
  | some a, some b => some (a.seq, b.seq)
  | _, _ => none

def creditBody (r : CreditRecord) : List Byte :=
  presence 2 (r.limit.map seqBytes) ++ byteOf r.timeouts ++ byteOf r.queries

def streamCountersBody (c : StreamCounters) : List Byte :=
  ctrBytes c.created ++ ctrBytes c.retired ++ ctrBytes c.skipped ++ ctrBytes c.flushed ++ ctrBytes c.gated
    ++ ctrBytes c.unrouted ++ ctrBytes c.overrun ++ ctrBytes c.gaps ++ ctrBytes c.duplicates ++ ctrBytes c.overLimit
    ++ c.late.toList.flatMap ctrBytes

/-- The fields of an entry that `strm.open` sets, with the state and the flags before them. -/
def entryFieldsBody (e : Entry) : List Byte :=
  byteOf e.state.code ++ beBytes 2 e.rackId ++ byteOf e.mode.code
    ++ [flagsByte [e.priority, e.gate, e.discOwed, e.hold, e.owedCredit]] ++ byteOf e.source.code
    ++ destBytes e.destPorts e.destSlots ++ beBytes 2 e.payload ++ byteOf e.width ++ beBytes 4 e.interval
    ++ byteOf e.ageLimit ++ byteOf e.holdLimit ++ byteOf e.drainLimit ++ beBytes 3 e.latency ++ seqBytes e.initSeq

/-- The ring and the sequences of an entry. -/
def entryRingBody (e : Entry) : List Byte :=
  beBytes 2 e.base ++ beBytes 2 e.len ++ presence 4 (e.stagedWin.map fun w => beBytes 2 w.1 ++ beBytes 2 w.2)
    ++ beBytes 2 e.writePos ++ beBytes 2 e.ring.length
    ++ presence 4 ((heldEnds e).map fun r => seqBytes r.1 ++ seqBytes r.2)
    ++ presence 5 ((openBlockOf e).map fun b => seqBytes b.seq ++ beBytes 2 (b.len / e.width) ++ byteOf b.age)
    ++ seqBytes e.nextSeq ++ seqBytes e.nextExp ++ presence 2 (e.lastAdv.map seqBytes) ++ byteOf e.holdCount
    ++ byteOf e.drainCount

/-- The body of `strm.stat` for an entry that has been opened. -/
def openedStatBody (s : State) (e : Entry) : List Byte :=
  entryFieldsBody e ++ entryRingBody e ++ (allPorts.flatMap fun p => byteOf (portCondition s e p))
    ++ (allSlots.flatMap fun k => byteOf (slotCondition s e k)) ++ (allPorts.flatMap fun p => creditBody e.credit[p])
    ++ streamCountersBody e.counters

/-- The body of `strm.stat` (R153, R209): zeros for an entry not opened since the last reset. -/
def strmStatBody (s : State) (e : Entry) : List Byte :=
  if e.opened then openedStatBody s e else (openedStatBody s e).map fun _ => 0

/-! ### Slots (R170) -/

def slotCountersBody (c : SlotCounters) : List Byte :=
  ctrBytes c.instants ++ ctrBytes c.validReads ++ ctrBytes c.invalidReads ++ ctrBytes c.heldInstants
    ++ ctrBytes c.samplesOut ++ ctrBytes c.blocksOut ++ ctrBytes c.underruns ++ ctrBytes c.trigPulses
    ++ ctrBytes c.strobePulses

/-- The rack id of an entry, 0 for none (10_formats.md). -/
def rackIdOf (s : State) (o : Option EntryId) : Nat := (o.map fun en => (s.entry en).rackId).getD 0

/-- The body of `slot.stat` (R170, R209), with the level of Sn_VALID at decoding. -/
def slotStatBody (s : State) (k : SlotId) (validLevel : Bool) : List Byte :=
  let q := s.slot k
  byteOf q.presence.code
    ++ [flagsByte [q.present, validLevel, s.holdLine k, s.timingGood k, q.playingFlag, q.underrun]]
    ++ presence 1 (q.debounce.map fun t => byteOf (msOf t)) ++ beBytes 4 q.divider ++ beBytes 2 q.phase
    ++ presence 6 (q.stagedClk.map fun c => beBytes 4 c.1 ++ beBytes 2 c.2) ++ byteOf q.cfg.debounce
    ++ byteOf q.cfg.strobe.code ++ [q.cfg.subscription] ++ beBytes 2 (rackIdOf s (sourceEntry s k))
    ++ beBytes 2 (rackIdOf s (sinkEntry s k)) ++ beBytes 4 q.lastValue.toNat ++ byteOf q.lastWidth
    ++ presence 4 (q.presenting.map fun r => seqBytes r.1 ++ beBytes 2 r.2)
    ++ presence 9 (q.head.map fun r => seqBytes r.1 ++ tickBytes r.2) ++ slotCountersBody q.counters

/-! ### Triggers (R189) -/

/-- A queue item: 14 bytes (R209). -/
def queueItem (x : TrigEntry) : List Byte :=
  beBytes 2 x.id.toNat ++ tickBytes x.fireTime ++ [x.lines] ++ byteOf x.hop ++ [portByte x.arrival]
    ++ [x.pendPorts.zeroExtend 8, x.owedPorts.zeroExtend 8]

/-- The kind code and the hop limit of a forward. -/
def forwardKind : TriggerCell ⊕ CancelCell → Nat × Nat
  | .inl c => (0x12, c.hop)
  | .inr c => (0x13, c.hop)

/-- A history item: 8 bytes (R209). -/
def historyItem (r : HistoryRecord) : List Byte :=
  beBytes 2 r.id.toNat ++ byteOf r.kind.code ++
    match r.forward with
    | none => List.replicate 5 0
    | some f =>
      flagOf true ++ byteOf (forwardKind f.cell).1 ++ byteOf (forwardKind f.cell).2
        ++ [f.pendPorts.zeroExtend 8, f.owedPorts.zeroExtend 8]

/-- The items of a `trg.list` reply: up to 8, from a position. -/
def listItems (u : TriggerUnit) (history : Bool) (first : Nat) : List (List Byte) :=
  if history then ((u.history.drop first).take 8).map historyItem else ((u.queue.drop first).take 8).map queueItem

/-- The body of `trg.list` (R189, R209). -/
def trgListBody (u : TriggerUnit) (history : Bool) (first : Nat) : List Byte :=
  byteOf u.queue.length ++ byteOf u.history.length ++ beBytes 2 u.lateWindow ++ byteOf u.defaultHop
    ++ beBytes 2 u.nextCount ++ ctrBytes u.fired ++ ctrBytes u.lateFired ++ ctrBytes u.stale ++ ctrBytes u.dropped
    ++ ctrBytes u.duplicate ++ ctrBytes u.cancelled ++ ctrBytes u.cancelLate ++ ctrBytes u.abandoned
    ++ byteOf (listItems u history first).length ++ (listItems u history first).flatten

/-! ### Hub and notices (R198, R204, R205, R210) -/

/-- The body of `hub.id` (R198, R209). -/
def hubIdBody (s : State) : List Byte :=
  let m := s.mgmt
  [0x52, 0x4C, 0x34, 0x38] ++ byteOf Config.revision ++ byteOf m.frame ++ byteOf s.tb.role.code
    ++ [flagsByte [m.rootStrap, m.portEnStrap]] ++ beBytes 2 m.decoded.toNat ++ beBytes 2 m.discardedReplies.toNat
    ++ beBytes 2 m.overruns.toNat ++ beBytes 2 m.badFrames.toNat ++ beBytes 2 m.unknownTrans.toNat

/-- A notice record: 22 bytes (R210). -/
def noticeBytes (n : Notice) : List Byte :=
  byteOf n.kind.code ++ beBytes 2 n.subject.toNat ++ beSigned 8 n.detail ++ tickBytes n.stamp ++ beBytes 4 n.extra.toNat

/-- The masked kinds, as the kind bytes of `ntc.mask` (R209). -/
def maskBody (m : Mgmt) : List Byte := beBytes 5 m.masked.toNat

/-! ### The readout requests -/

/-- `tb.now` (R32). -/
def execTbNow (s : State) : Host.Outcome State Fault Refusal :=
  unlessReset s fun s => s.reply .ok (readingBytes s.tb.reading)

/-- `tb.stat` (R32). -/
def execTbStat (s : State) : Host.Outcome State Fault Refusal := unlessReset s fun s => s.reply .ok (tbStatBody s)

/-- `win.stat` (R53). -/
def execWinStat (s : State) : Host.Outcome State Fault Refusal :=
  unlessReset s fun s => s.reply .ok (winStatBody s.win)

/-- `org.stat` (R69). -/
def execOrgStat (s : State) : Host.Outcome State Fault Refusal := unlessReset s fun s => s.reply .ok (orgStatBody s)

/-- `port.stat` (R102). -/
def execPortStat (port : Nat) (s : State) : Host.Outcome State Fault Refusal :=
  unlessReset s fun s => overPort port (fun p s => s.reply .ok (portStatBody (s.port p))) s

/-- `xmit.stat` (R123). -/
def execXmitStat (port : Nat) (s : State) : Host.Outcome State Fault Refusal :=
  unlessReset s fun s => overPort port (fun p s => s.reply .ok (xmitStatBody s p)) s

/-- `strm.stat` (R153). -/
def execStrmStat (entry : Nat) (s : State) : Host.Outcome State Fault Refusal :=
  unlessReset s fun s =>
    match entryOf entry with
    | none => s.refuse .badValue
    | some en => s.reply .ok (strmStatBody s (s.entry en))

/-- `slot.stat` (R170). -/
def execSlotStat (slot : Nat) (validLevel : Bool) (s : State) : Host.Outcome State Fault Refusal :=
  unlessReset s fun s =>
    match slotOf slot with
    | none => s.refuse .badValue
    | some k => s.reply .ok (slotStatBody s k validLevel)

/-- `trg.list` (R189). -/
def execTrgList (part first : Nat) (s : State) : Host.Outcome State Fault Refusal :=
  unlessReset s fun s =>
    match boolOf part with
    | none => s.refuse .badValue
    | some history => if first ≤ 15 then s.reply .ok (trgListBody s.trg history first) else s.refuse .badValue

/-- `hub.id` (R198). -/
def execHubId (s : State) : Host.Outcome State Fault Refusal := unlessReset s fun s => s.reply .ok (hubIdBody s)

end Sys2Proof.Machine
end

