-- ==== Sys2Proof/Machine/Formats.lean ====
section
/-! DEFINITION. The bytes of link cells and of management frames (R207, R208): how a departing cell is spelled, and
which command the arrival of bytes on a link is. -/
namespace Sys2Proof.Machine

/-! ### The link CRC (R207) -/

/-- One bit of the CRC register: the feedback is the bit exclusive-or bit 15, and the polynomial is 0x1021. -/
def crcBit (r : BitVec 16) (b : Bool) : BitVec 16 :=
  let shifted := r <<< 1
  if b != r.getLsbD 15 then shifted ^^^ 0x1021#16 else shifted

/-- One byte, most significant bit first. -/
def crcByte (r : BitVec 16) (b : Byte) : BitVec 16 :=
  [7, 6, 5, 4, 3, 2, 1, 0].foldl (fun r i => crcBit r (b.getLsbD i)) r

/-- The link CRC of bytes, from the register at 0xFFFF. -/
def linkCrc (bs : List Byte) : BitVec 16 := bs.foldl crcByte 0xFFFF#16

/-! ### Cells as bytes (R207) -/

def markFlags (c : MarkerCell) : Byte := flagsByte [c.grade, c.aligned]

/-- The body of a cell, by the table of R207. -/
def cellBody : Cell → List Byte
  | .marker c =>
    byteOf c.sender ++ byteOf c.hop ++ [markFlags c] ++ byteOf c.upstream ++ beBytes 4 c.epoch ++ readingBytes c.stamp
  | .probe c => byteOf c.sender ++ byteOf c.attempt ++ byteOf c.index ++ readingBytes c.t1
  | .echo c =>
    byteOf c.responder ++ byteOf c.sender ++ byteOf c.attempt ++ byteOf c.index ++ readingBytes c.t2 ++ readingBytes c.t3
  | .credit c => beBytes 2 c.rackId ++ seqBytes c.limit
  | .query r => beBytes 2 r
  | .trigger c => beBytes 2 c.id.toNat ++ tickBytes c.fireTime ++ [c.lines] ++ byteOf c.hop
  | .cancel c => beBytes 2 c.id.toNat ++ byteOf c.hop
  | .quiesce => []
  | .resume => []
  | .sample c =>
    beBytes 2 c.rackId ++ seqBytes c.seq ++ tickBytes c.stamp
      ++ [flagsByte [c.trusted, c.disc, c.short, c.mark.isSome]]
      ++ seqBytes (c.mark.getD (0, 0)).1 ++ seqBytes (c.mark.getD (0, 0)).2
      ++ byteOf c.extraMarks ++ beBytes 2 c.payload.length ++ c.payload

/-- The header of a cell: its kind code and its body length. -/
def cellHeader (c : Cell) : List Byte := byteOf (Cell.kindCode c) ++ beBytes 2 (cellBody c).length

/-- A cell as the bytes on a link: header, body and check field (R207). -/
def encodeCell (c : Cell) : List Byte :=
  let bs := cellHeader c ++ cellBody c
  bs ++ beBytes 2 (linkCrc bs).toNat

/-! ### Receiving (R78, R207) -/

/-- Split bytes into fields of the given sizes; `none` when they do not fill them exactly. -/
def fields : List Nat → List Byte → Option (List (List Byte))
  | [], [] => some []
  | [], _ :: _ => none
  | n :: ns, bs => if bs.length < n then none else (fields ns (bs.drop n)).map (bs.take n :: ·)

def within (lo hi n : Nat) : Bool := decide (lo ≤ n) && decide (n ≤ hi)

/-- Whether the fields of a cell lie in the ranges their chapters give (R207; log 28 for the chapters each range is read
from). -/
def cellInRange : Cell → Bool
  | .marker c =>
    within 0 63 c.sender && within 0 31 c.hop && within 0 63 c.upstream
      && within Config.epochMin Config.epochMax c.epoch
  | .probe c => within 0 63 c.sender && within 1 3 c.attempt && within 1 8 c.index
  | .echo c => within 0 63 c.responder && within 0 63 c.sender && within 1 3 c.attempt && within 1 8 c.index
  | .credit c => within 1 1023 c.rackId
  | .query r => within 1 1023 r
  | .trigger c => within 0 31 c.hop
  | .cancel c => within 0 31 c.hop
  | .quiesce => true
  | .resume => true
  | .sample c => within 1 1023 c.rackId && within 1 512 c.payload.length && within 0 255 c.extraMarks

def seqOf (bs : List Byte) : Seq := BitVec.ofNat 16 (ofBytes bs)

def readingOf (bs : List Byte) : SubTick := BitVec.ofNat 64 (ofBytes bs)

def tickOf (bs : List Byte) : Tick := BitVec.ofNat 56 (ofBytes bs)

def bitOfBytes (bs : List Byte) (i : Nat) : Bool := (BitVec.ofNat 8 (ofBytes bs)).getLsbD i

/-- The cell that a kind code and a body spell, ranges apart; `none` for an unknown kind or a body of another size. -/
def cellOf (kind : Nat) (body : List Byte) : Option Cell :=
  match kind with
  | 0x01 =>
    match fields [1, 1, 1, 1, 4, 8] body with
    | some [a, h, f, u, e, m] =>
      some (.marker
        { sender := ofBytes a, hop := ofBytes h, grade := bitOfBytes f 0, aligned := bitOfBytes f 1
          upstream := ofBytes u, epoch := ofBytes e, stamp := readingOf m })
    | _ => none
  | 0x02 =>
    match fields [1, 1, 1, 8] body with
    | some [a, n, i, t] => some (.probe { sender := ofBytes a, attempt := ofBytes n, index := ofBytes i, t1 := readingOf t })
    | _ => none
  | 0x03 =>
    match fields [1, 1, 1, 1, 8, 8] body with
    | some [r, a, n, i, t, u] =>
      some (.echo
        { responder := ofBytes r, sender := ofBytes a, attempt := ofBytes n, index := ofBytes i, t2 := readingOf t
          t3 := readingOf u })
    | _ => none
  | 0x10 =>
    match fields [2, 2] body with
    | some [r, l] => some (.credit { rackId := ofBytes r, limit := seqOf l })
    | _ => none
  | 0x11 =>
    match fields [2] body with
    | some [r] => some (.query (ofBytes r))
    | _ => none
  | 0x12 =>
    match fields [2, 7, 1, 1] body with
    | some [i, t, l, h] =>
      some (.trigger { id := seqOf i, fireTime := tickOf t, lines := BitVec.ofNat 8 (ofBytes l), hop := ofBytes h })
    | _ => none
  | 0x13 =>
    match fields [2, 1] body with
    | some [i, h] => some (.cancel { id := seqOf i, hop := ofBytes h })
    | _ => none
  | 0x14 => if body.isEmpty then some .quiesce else none
  | 0x15 => if body.isEmpty then some .resume else none
  | 0x20 =>
    match fields [2, 2, 7, 1, 2, 2, 1, 2] (body.take 19) with
    | some [r, q, t, f, i, o, x, l] =>
      if ofBytes l = body.length - 19 then
        some (.sample
          { rackId := ofBytes r, seq := seqOf q, stamp := tickOf t, trusted := bitOfBytes f 0, disc := bitOfBytes f 1
            short := bitOfBytes f 2, mark := if bitOfBytes f 3 then some (seqOf i, seqOf o) else none
            extraMarks := ofBytes x, payload := body.drop 19 })
      else none
    | _ => none
  | _ => none

/-- The largest body of any kind (R207). -/
def maxBody : Nat := 531

/-- The bytes of a cell's header, body and check field, when that many have arrived and the header's length is not
above the largest body (R207). -/
def wholeCell (bs : List Byte) : Option (Nat × List Byte) :=
  match bs with
  | k :: h :: l :: rest =>
    let n := ofBytes [h, l]
    if n ≤ maxBody ∧ n + 2 ≤ rest.length ∧ linkCrc ((k :: h :: l :: rest).take (n + 5)) = 0 then
      some (k.toNat, rest.take n)
    else none
  | _ => none

/-- The command that a cell of a kind is at its arrival on a port. -/
def cellCommand (p : ArrivalPort) (arrival : SubTick) : Cell → Instr
  | .marker c => .markerReceived p c arrival
  | .probe c => .probeReceived p c arrival
  | .echo c => .echoReceived p c arrival
  | .credit c => .creditReceived p c
  | .query r => .queryReceived p r
  | .trigger c => .triggerReceived p c
  | .cancel c => .cancelReceived p c
  | .quiesce => .quiesceReceived p
  | .resume => .resumeReceived p
  | .sample c => .sampleReceived p c

/-- The command that bytes on a link are at their arrival (R78, R207): a bad cell, a good cell of unknown kind (or one
whose length or fields do not fit its kind), or a cell received. -/
def arrivalCommand (p : ArrivalPort) (arrival : SubTick) (bs : List Byte) : Instr :=
  match wholeCell bs with
  | none => .cellBadCrc p
  | some (k, body) =>
    match cellOf k body with
    | none => .cellUnknownKind p
    | some c => if cellInRange c then cellCommand p arrival c else .cellUnknownKind p

/-! ### Management frames (R193, R196, R208) -/

/-- The bytes of a reply frame after the flags are known: kind, tag, status, flags, body length, body. -/
def replyFrame (kind tag : Byte) (status : Status) (flags : Byte) (body : List Byte) : List Byte :=
  [kind, tag] ++ byteOf status.code ++ [flags] ++ beBytes 2 body.length ++ body

/-- The reply frame that a read returns now (R195, R196). -/
def frameToRead (m : Mgmt) : List Byte :=
  match m.replySlot with
  | some r => replyFrame r.kind r.tag r.status (replyFlags m r.discarded r.overrun) r.body
  | none =>
    match m.inDecode with
    | some d => replyFrame d.kind d.tag .notReady (replyFlags m false false) []
    | none => replyFrame 0 0 .notReady (replyFlags m false false) []

end Sys2Proof.Machine
end

