-- ==== Sys2Proof/Machine/Mgmt.lean ====
section
/-! DEFINITION. The management port: transactions, frames and replies, the resets, and the hub and notice requests but
`hub.id` (chapter 9). -/
namespace Sys2Proof.Machine

/-! ### Transactions (R192, R193, R195) -/

/-- SPI_UNKNOWN_TRANSACTION (R192): the hub drives 0x00 and counts. The first bytes 0xC3 and 0x3C name the other kinds. -/
def execSpiUnknownTransaction (first : Byte) (clocked : Nat) (s : State) : Host.Outcome State Fault Refusal :=
  unlessReset s fun s =>
    if first = 0xC3 ∨ first = 0x3C then s
    else s.updMgmt fun m => { m with unknownTrans := m.unknownTrans + 1, sdo := List.replicate clocked 0 }

/-- A frame that is not bad: its kind, its tag and its body (R193). Bytes beyond the declared length are ignored. -/
def goodFrame : List Byte → Option (Byte × Byte × List Byte)
  | kind :: tag :: len :: rest =>
    if len.toNat ≤ 250 ∧ len.toNat ≤ rest.length then some (kind, tag, rest.take len.toNat) else none
  | _ => none

/-- What the port itself answers: BAD_KIND, or BAD_VALUE for a body that does not fit its layout (R194, R209). No pin
bears on it. DESIGN CHOICE (log 17): the rules of `tb.offset`, `tb.realign`, `org.arm`, `org.disarm`, `strm.start`,
`strm.stop`, `strm.close` and `trg.sched` do not order a body of another length against their checks of role or state, and the
model answers BAD_VALUE ahead of those. Where the owner's rule puts a check before that of the body, `requestOf` spells a
command, and the owner answers (R68, R130, R149, R151). -/
def portAnswer (kind : Byte) (body : List Byte) : Option Answer :=
  match requestOf { rootStrap := false, portEnStrap := false, slotValid := 0 } kind body with
  | .ok _ => none
  | .error st => some { status := st, body := [] }

/-- The discard of an unread reply (R193); the answer's second part is the previous-discarded mark of the new request. -/
def discardUnread (m : Mgmt) : Mgmt × Bool :=
  if m.replySlot.isSome then ({ m with replySlot := none, discardedReplies := m.discardedReplies + 1 }, true)
  else (m, false)

/-- A frame written while no request is in decode (R193). -/
def takeFrame (bytes : List Byte) (m : Mgmt) : Mgmt :=
  let r := discardUnread m
  match goodFrame bytes with
  | none =>
    { r.1 with
      badFrames := r.1.badFrames + 1
      inDecode := some
        { kind := bytes.getD 0 0, tag := bytes.getD 1 0, body := [], discarded := r.2, overrun := false }
      answer := some { status := .badFrame, body := [] } }
  | some (kind, tag, body) =>
    { r.1 with
      inDecode := some { kind := kind, tag := tag, body := body, discarded := r.2, overrun := false }
      answer := portAnswer kind body }

/-- The rise of SEL ending a write transaction (R193). During it the hub drives 0x00 (R192). -/
def writeFrame (bytes : List Byte) (m : Mgmt) : Mgmt :=
  let m := { m with sdo := List.replicate bytes.length 0 }
  match m.inDecode with
  | some d => { m with inDecode := some { d with overrun := true }, overruns := m.overruns + 1 }
  | none => takeFrame bytes m

/-- REQUEST_FRAME_WRITE (R193). -/
def execRequestFrameWrite (bytes : List Byte) (s : State) : Host.Outcome State Fault Refusal :=
  unlessReset s fun s => s.updMgmt (writeFrame bytes)

/-- The reply of the request in decode moves into the reply slot (R194). -/
def finishReply (m : Mgmt) : Mgmt :=
  match m.inDecode, m.answer with
  | some d, some a =>
    { m with
      inDecode := none, answer := none, decoded := m.decoded + 1
      replySlot := some
        { kind := d.kind, tag := d.tag, status := a.status, discarded := d.discarded, overrun := d.overrun, body := a.body } }
  | _, _ => m

/-- REPLY_MADE_READY (R194). A request whose owner has not answered yet makes no reply. -/
def execReplyMadeReady (s : State) : Host.Outcome State Fault Refusal := unlessReset s fun s => s.updMgmt finishReply

/-- A read transaction (R195): the bytes driven, 0x00 after the frame; a reply read to its end leaves the slot. -/
def readReply (clocked : Nat) (m : Mgmt) : Mgmt :=
  let f := frameToRead m
  let m := { m with sdo := (f ++ List.replicate (clocked - f.length) 0).take clocked }
  if f.length ≤ clocked then { m with replySlot := none } else m

/-- REPLY_READ (R195). -/
def execReplyRead (clocked : Nat) (s : State) : Host.Outcome State Fault Refusal :=
  unlessReset s fun s => s.updMgmt (readReply clocked)

/-! ### Frame number (R98, R199) -/

/-- A port holds a peer or trains under the frame number (R199). -/
def holdsFrame (q : Port) : Bool :=
  q.link == .training || q.link == .active || q.link == .lost || q.link == .draining || q.link == .quiesced

/-- `hub.frame` (R199): every port in WAITING with signal detect high enters TRAINING (R98). -/
def execHubFrame (frame : Nat) (s : State) : Host.Outcome State Fault Refusal :=
  unlessReset s fun s =>
    if !optIn 1 63 (some frame) then s.refuse .badValue
    else if allPorts.any fun p => holdsFrame (s.port p) then s.refuse .state
    else
      (forPorts (fun p s =>
        if (s.port p).link = .waiting ∧ (s.port p).signal then enterTraining p s else s)
        (s.updMgmt fun m => { m with frame := frame })).accept

/-! ### Resets (R200, R201, R206) -/

/-- Every block at the values it begins from at the release of RESET, with the straps as sampled, the pins at their levels and
the buffer kept (R125, R200). The queue of commands is not the hub's. -/
def resetBlocks (root portEn : Bool) (s : State) : State :=
  { tb := Timebase.reset root, win := WindowUnit.reset, org := Origin.reset s.org.startLevel
    ports := s.ports.map fun q => Port.reset portEn q.present q.signal
    xmit := XmitSettings.reset, entries := Vector.replicate 32 Entry.reset, buffer := s.buffer
    slots := s.slots.map fun q => Slot.reset q.present
    trg := TriggerUnit.reset, mgmt := Mgmt.reset root portEn, inReset := false, pending := s.pending }

/-- Every block at its reset values while RESET is asserted (R200). DESIGN CHOICE (log 63): no strap is sampled yet, and what a
strap decides is held as for a low one; a port is DISABLED and a slot EMPTY whatever the levels of their pins. -/
def holdBlocks (s : State) : State :=
  { resetBlocks false false s with
    slots := s.slots.map fun q => { Slot.reset false with present := q.present }
    inReset := true }

/-- The role's first announcement to the phase window unit: the root rule, for a root (R40, R45). -/
def leaveReset (s : State) : State := rootRule .role .grade (rootRule .role .stamp s)

/-- RESET_PIN (R192, R200): RESET is sensed as a level. While it is asserted every block is held at its reset values; at its
release the straps are sampled, and each block starts. -/
def execResetPin (asserted : Bool) (straps : Straps) (s : State) : Host.Outcome State Fault Refusal :=
  .next <|
    if asserted = s.inReset then s
    else if asserted then holdBlocks s
    else leaveReset (resetBlocks straps.root straps.portEn s)

/-- `hub.reset` ALL (R200): the same, but the request stays in decode with its marks, and is answered OK. -/
def execHubResetAll (rootStrap portEnStrap : Bool) (s : State) : Host.Outcome State Fault Refusal :=
  unlessReset s fun s =>
    ((leaveReset (resetBlocks rootStrap portEnStrap s)).updMgmt fun m =>
    { m with inDecode := s.mgmt.inDecode, sdo := s.mgmt.sdo }).accept

/-- Empty a port's control queue; a QUIESCE or RESUME removed becomes owed (R103, R201). -/
def clearControl (q : Port) : Port :=
  { q with
    ctrlQ := []
    quiesceOwed := q.quiesceOwed || q.ctrlQ.contains .quiesce
    resumeOwed := q.resumeOwed || q.ctrlQ.contains .resume }

/-- What `hub.reset` TRAFFIC leaves of a slot's playout (R171). -/
def clearPlayout (q : Slot) : Slot :=
  { q with presenting := none, playingFlag := false, underrun := false, head := none }

/-- The effects of `hub.reset` TRAFFIC (R201). -/
def resetTraffic (s : State) : State :=
  let s := forEntries trafficClose s
  { s with
    ports := s.ports.map clearControl, slots := s.slots.map clearPlayout
    trg := { s.trg with queue := [], history := [] }
    mgmt := { s.mgmt with notices := [], lostFlag := false, lostCount := 0 } }

/-- `hub.reset` TRAFFIC (R201). -/
def execHubResetTraffic (s : State) : Host.Outcome State Fault Refusal :=
  unlessReset s fun s => (resetTraffic s).accept

/-! ### Notices (R204, R205) -/

/-- The kinds of a list of classes and kinds, each class expanded to its kinds (R205, R209). -/
def kindsNamed (classes : BitVec 8) (kinds : BitVec 40) : BitVec 36 :=
  (List.range 36).foldl (fun m c =>
    if inSet kinds c || inSet classes (classOfCode c - 1) then withBit m c else m) 0

/-- `ntc.mask` (R205). -/
def execNtcMask (r : NtcMaskReq) (s : State) : Host.Outcome State Fault Refusal :=
  unlessReset s fun s =>
    let mask := kindsNamed r.maskClasses r.maskKinds
    let enable := kindsNamed r.enableClasses r.enableKinds
    if r.maskClasses.toNat < 2 ^ 5 ∧ r.enableClasses.toNat < 2 ^ 5 ∧ r.maskKinds.toNat < 2 ^ 36
        ∧ r.enableKinds.toNat < 2 ^ 36 ∧ mask &&& enable = 0 then
      let s := s.updMgmt fun m => { m with masked := (m.masked ||| mask) &&& ~~~ enable }
      s.reply .ok (maskBody s.mgmt)
    else s.refuse .badValue

/-- Take up to `n` notices of one class from a list, oldest first: those taken, and those left in their order. -/
def takeClass (c : Nat) : Nat → List Notice → List Notice × List Notice
  | _, [] => ([], [])
  | 0, ns => ([], ns)
  | n + 1, x :: xs =>
    if classOfCode x.kind.code = c then
      let r := takeClass c n xs
      (x :: r.1, r.2)
    else
      let r := takeClass c (n + 1) xs
      (r.1, x :: r.2)

/-- Take up to `n` notices in class order (R204). -/
def takeNotices (n : Nat) (ns : List Notice) : List Notice × List Notice :=
  [1, 2, 3, 4, 5].foldl (fun (r : List Notice × List Notice) c =>
    let t := takeClass c (n - r.1.length) r.2
    (r.1 ++ t.1, t.2)) ([], ns)

/-- The body of `ntc.get` (R204, R209). -/
def ntcGetBody (m : Mgmt) (taken left : List Notice) : List Byte :=
  byteOf taken.length ++ byteOf left.length ++ flagOf m.lostFlag ++ beBytes 2 m.lostCount ++ taken.flatMap noticeBytes

/-- `ntc.get` (R204). -/
def execNtcGet (count : Option Nat) (s : State) : Host.Outcome State Fault Refusal :=
  unlessReset s fun s =>
    if optIn 1 15 count then
      let r := takeNotices (count.getD 15) s.mgmt.notices
      (s.updMgmt fun m => { m with notices := r.2, lostFlag := false, lostCount := 0 }).reply .ok
        (ntcGetBody s.mgmt r.1 r.2)
    else s.refuse .badValue

end Sys2Proof.Machine
end

