-- ==== Sys2Proof/Machine/StreamRequests.lean ====
section
/-! DEFINITION. The stream requests but `strm.stat`, and the SAMPLE, CREDIT and QUERY cells received (chapters 5
and 6). -/
namespace Sys2Proof.Machine

/-! ### Checks over the table (R130, R149, R151) -/

/-- Whether two windows share a block slot. -/
def windowsMeet (a b : Nat × Nat) : Bool := decide (a.1 < b.1 + b.2) && decide (b.1 < a.1 + a.2)

/-- Whether a window shares a block slot with the window in force or the staged window of another entry that is not
CLOSED (R130, R149). -/
def overlapsOther (s : State) (en : EntryId) (w : Nat × Nat) : Bool :=
  allEntries.any fun x =>
    let e := s.entry x
    decide (x ≠ en) && e.state != .closed &&
      (windowsMeet w (e.base, e.len) || (e.stagedWin.map (windowsMeet w)).getD false)

/-- Whether a window lies in the buffer (R126, R130, R149). -/
def windowInRange (base len : Nat) : Bool :=
  decide (2 ≤ len) && decide (len ≤ 1024) && decide (base + len ≤ Config.blockSlots)

/-- Whether one of a set of slots is bound as sink to another entry that is not CLOSED (R130, R151). -/
def sinkTaken (s : State) (en : EntryId) (slots : Set8) : Bool :=
  allEntries.any fun x =>
    decide (x ≠ en) && (s.entry x).state != .closed && (s.entry x).destSlots &&& slots != 0

/-- Whether a source slot is bound as source to another entry that is not CLOSED (R130). -/
def sourceTaken (s : State) (en : EntryId) (src : Source) : Bool :=
  match src with
  | .port _ => false
  | .slot k =>
    allEntries.any fun x => decide (x ≠ en) && (s.entry x).state != .closed && (s.entry x).source == .slot k

/-- Whether a pair of sets names a source (R130, R151). -/
def namesSource (ports : BitVec 8) (slots : Set8) : Source → Bool
  | .port p => inSet ports p.val
  | .slot k => inSet slots k.val

/-- Whether every slot of a set has the interval as its divider after the next boundary (R131, R151). -/
def dividersAgree (s : State) (slots : Set8) (interval : Nat) : Bool :=
  allSlots.all fun k => !inSet slots k.val || nextDivider (s.slot k) == interval

/-! ### `strm.open` (R130) -/

/-- The ranges of the numeric fields of `strm.open` (R128, R130). -/
def openRanges (r : StrmOpenReq) : Bool :=
  optIn 1 1023 (some r.rackId) && optIn 16 512 (some r.payload) && r.payload % 16 == 0
    && (r.width == 2 || r.width == 4) && optIn 2 65536 (some r.interval) && windowInRange r.base r.len
    && r.destPorts.toNat < 16 && optIn 0 1 r.priority && optIn 0 1 r.gate && optIn 1 255 r.ageLimit
    && optIn 1 255 r.holdLimit && optIn 1 255 r.drainLimit && optIn 0 16777215 r.latency && optIn 0 65535 r.initSeq

/-- The entry that an accepted `strm.open` sets up (R130). -/
def openedEntry (r : StrmOpenReq) (mode : StreamMode) (src : Source) : Entry :=
  let sq := BitVec.ofNat 16 (r.initSeq.getD 0)
  { Entry.reset with
    state := .ready, opened := true, rackId := r.rackId, mode := mode, priority := r.priority == some 1
    gate := r.gate == some 1, source := src, destPorts := r.destPorts.truncate 4, destSlots := r.destSlots
    payload := r.payload, width := r.width, interval := r.interval, ageLimit := r.ageLimit.getD 2
    holdLimit := r.holdLimit.getD 4, drainLimit := r.drainLimit.getD 16, latency := r.latency.getD 0, initSeq := sq
    base := r.base, len := r.len, writePos := r.base, nextSeq := sq, nextExp := sq, discOwed := true }

/-- The check of the fields of `strm.open`, step 3 of R130: present, and in range. -/
def openValues (r : StrmOpenReq) : Option (StreamMode × Source) :=
  match StreamMode.ofCode r.mode, Source.ofCode r.source with
  | some m, some src => if openRanges r && !namesSource r.destPorts r.destSlots src then some (m, src) else none
  | _, _ => none

/-- `strm.open` (R130). -/
def execStrmOpen (r : StrmOpenReq) (s : State) : Host.Outcome State Fault Refusal :=
  unlessReset s fun s =>
    match entryOf r.entry with
    | none => s.refuse .badValue
    | some en =>
      if (s.entry en).state ≠ .closed then s.refuse .busy
      else
        match openValues r with
        | none => s.refuse .badValue
        | some (m, src) =>
          if (entryOfRack s r.rackId).isSome then s.refuse .duplicate
          else if overlapsOther s en (r.base, r.len) then s.refuse .overlap
          else if sourceTaken s en src || sinkTaken s en r.destSlots then s.refuse .slotBusy
          else (s.updEntry en fun _ => openedEntry r m src).accept

/-! ### `strm.start`, `strm.stop`, `strm.close` (R131 to R133) -/

/-- A start from READY whose checks have passed (R131). -/
def startReady (en : EntryId) (s : State) : State :=
  if isOrigin (s.entry en) then
    s.updEntry en fun e => settleHold { e with state := .running, awaitBoundary := true, discOwed := true }
  else creditNow en (s.updEntry en fun e => { e with state := .running })

/-- A start from STALLED (R131). -/
def startStalled (en : EntryId) (s : State) : State :=
  let s := s.updEntry en fun e => settleHold { e with state := .running, holdCount := 0, discOwed := true }
  raiseNotice .streamResumed (s.entry en).rackId 0 (s.entry en).ring.length s

/-- Whether the source slot of an origin entry is PRESENT (R131); a receiving entry asks nothing. -/
def sourcePresent (s : State) (e : Entry) : Bool :=
  match e.source with
  | .port _ => true
  | .slot k => (s.slot k).presence == .present

/-- The slots whose dividers `strm.start` compares with the interval (R131). -/
def startSlots (e : Entry) : Set8 :=
  match e.source with
  | .port _ => e.destSlots
  | .slot k => withBit e.destSlots k.val

/-- What `strm.start` does with an entry (R131). -/
def strmStart (en : EntryId) (s : State) : State :=
  let e := s.entry en
  match e.state with
  | .closed => s.refuse .noEntry
  | .ready =>
    if !sourcePresent s e then s.refuse .state
    else if !dividersAgree s (startSlots e) e.interval then s.refuse .divider
    else (startReady en s).accept
  | .stalled => (startStalled en s).accept
  | .running => s.refuse .state
  | .closing => s.refuse .state

/-- A request over a stream entry of the given number; a number above 31 is refused (R130, R153). -/
def overEntry (entry : Nat) (f : EntryId → State → State) (s : State) : State :=
  match entryOf entry with
  | none => s.refuse .badValue
  | some en => f en s

/-- `strm.start` (R131). -/
def execStrmStart (entry : Nat) (s : State) : Host.Outcome State Fault Refusal :=
  unlessReset s fun s => overEntry entry strmStart s

/-- What `strm.stop` does with an entry (R132). -/
def strmStop (en : EntryId) (s : State) : State :=
  match (s.entry en).state with
  | .closed => s.refuse .noEntry
  | .running => (toReady en s).accept
  | .stalled => (toReady en s).accept
  | .ready => s.refuse .state
  | .closing => s.refuse .state

/-- `strm.stop` (R132). -/
def execStrmStop (entry : Nat) (s : State) : Host.Outcome State Fault Refusal :=
  unlessReset s fun s => overEntry entry strmStop s

/-- The close of an entry in READY, RUNNING or STALLED (R133); from STALLED too discontinuity-owed is left alone (log 54). -/
def beginClose (en : EntryId) (s : State) : State :=
  let s := (closeBlock en s).updEntry en fun e =>
    { e with state := .closing, hold := false, holdCount := 0, drainCount := 0, awaitBoundary := false }
  closeIfEmpty en (stopAdvertising en s)

/-- What `strm.close` does with an entry (R133). -/
def strmClose (en : EntryId) (s : State) : State :=
  match (s.entry en).state with
  | .closed => s.refuse .noEntry
  | .closing => s.accept
  | _ => (beginClose en s).accept

/-- `strm.close` (R133). -/
def execStrmClose (entry : Nat) (s : State) : Host.Outcome State Fault Refusal :=
  unlessReset s fun s => overEntry entry strmClose s

/-! ### `strm.window` (R149) -/

/-- What `strm.window` does with an entry (R149). -/
def strmWindow (base len : Nat) (en : EntryId) (s : State) : State :=
  let e := s.entry en
  if e.state = .closed then s.refuse .noEntry
  else if e.state = .closing then s.refuse .state
  else if !windowInRange base len then s.refuse .badValue
  else if overlapsOther s en (base, len) then s.refuse .overlap
  else if base = e.base ∧ len = e.len then (s.updEntry en fun e => { e with stagedWin := none }).accept
  else (s.updEntry en fun e => { e with stagedWin := some (base, len) }).reply .staged []

/-- `strm.window` (R149). -/
def execStrmWindow (entry base len : Nat) (s : State) : Host.Outcome State Fault Refusal :=
  unlessReset s fun s => overEntry entry (strmWindow base len) s

/-! ### `strm.dest` (R151) -/

/-- Remove a destination port, but for the retirements (R151). -/
def removePort (en : EntryId) (p : PortId) (s : State) : State :=
  withdraw p (· == .query en) <| s.updEntry en fun e =>
    setCredit p (fun _ => CreditRecord.fresh)
      { e.dropPort p with
        destPorts := withoutBit e.destPorts p.val, abandonedPorts := withoutBit e.abandonedPorts p.val }

/-- Remove a destination slot, but for the retirements (R151); its binding as sink ends. -/
def removeSlot (en : EntryId) (k : SlotId) (s : State) : State :=
  unbindSink k <| s.updEntry en fun e => { e.dropSlot k with destSlots := withoutBit e.destSlots k.val }

/-- Add a destination port that is not in the set or is abandoned (R151). -/
def addPort (p : PortId) (e : Entry) : Entry :=
  if inSet e.destPorts p.val ∧ !inSet e.abandonedPorts p.val then e
  else
    setCredit p (fun _ => CreditRecord.fresh)
      { e with destPorts := withBit e.destPorts p.val, abandonedPorts := withoutBit e.abandonedPorts p.val }

/-- The removals and additions of an accepted `strm.dest` (R151). The blocks that the removals leave with an empty pending set
retire together, in one change of the blocks held (log 57). -/
def applyDest (r : StrmDestReq) (en : EntryId) (s : State) : State :=
  let s := forPorts (fun p s =>
    if inSet r.removePorts p.val && inSet (s.entry en).destPorts p.val then removePort en p s else s) s
  let s := forSlots (fun k s =>
    if inSet r.removeSlots k.val && inSet (s.entry en).destSlots k.val then removeSlot en k s else s) s
  let s := sweep en s
  let s := forPorts (fun p s => if inSet r.addPorts p.val then s.updEntry en (addPort p) else s) s
  s.updEntry en fun e => { e with destSlots := e.destSlots ||| r.addSlots }

/-- The values check of `strm.dest` (R151). -/
def destValues (r : StrmDestReq) (e : Entry) : Bool :=
  decide (r.addPorts.toNat < 16) && decide (r.removePorts.toNat < 16)
    && !namesSource (r.addPorts ||| r.removePorts) (r.addSlots ||| r.removeSlots) e.source
    && r.addPorts &&& r.removePorts == 0 && r.addSlots &&& r.removeSlots == 0

/-- What `strm.dest` does with an entry (R151). -/
def strmDest (r : StrmDestReq) (en : EntryId) (s : State) : State :=
  let e := s.entry en
  if e.state = .closed then s.refuse .noEntry
  else if e.state = .closing then s.refuse .state
  else if !destValues r e then s.refuse .badValue
  else if sinkTaken s en r.addSlots then s.refuse .slotBusy
  else if (e.state = .running ∨ e.state = .stalled) ∧ !dividersAgree s r.addSlots e.interval then s.refuse .divider
  else (applyDest r en s).accept

/-- `strm.dest` (R151). -/
def execStrmDest (r : StrmDestReq) (s : State) : Host.Outcome State Fault Refusal :=
  unlessReset s fun s => overEntry r.entry (strmDest r) s

/-! ### Cells received: receive dispatch takes them from a port in ACTIVE or DRAINING (R78, R120) -/

/-- A SAMPLE received (R78, R121, R144). -/
def execSampleReceived (a : ArrivalPort) (c : SampleCell) (s : State) : Host.Outcome State Fault Refusal :=
  unlessReset s fun s => whenBegun a (fun p s => if inService (s.port p) then receiveSample p c s else s) s

/-- A CREDIT received (R78, R114). -/
def execCreditReceived (a : ArrivalPort) (c : CreditCell) (s : State) : Host.Outcome State Fault Refusal :=
  unlessReset s fun s => whenBegun a (fun p s => if inService (s.port p) then receiveCredit p c s else s) s

/-- A QUERY received (R78, R116). -/
def execQueryReceived (a : ArrivalPort) (rackId : Nat) (s : State) : Host.Outcome State Fault Refusal :=
  unlessReset s fun s => whenBegun a (fun p s => if inService (s.port p) then receiveQuery p rackId s else s) s

end Sys2Proof.Machine
end

