-- ==== Sys2Proof/Machine/TimebaseRequests.lean ====
section
/-! DEFINITION. Role changes and the requests over the timebase unit but `tb.now`, `tb.stat` and `tb.offset`
(chapter 1). -/
namespace Sys2Proof.Machine

/-! ### Role changes (R10) -/

/-- The timebase unit in a new role (R10). -/
def Timebase.inRole (r : Role) (t : Timebase) : Timebase :=
  { t with
    role := r, ref := none, hadRef := false, freq := 0, slew := 0, excursions := 0, goodSpacings := 0, spacing := none
    silence := none }

/-- A change of role (R10): REF_CHANGED if the hub had a reference, SERVO_STATE, and the announcements to the origin
unit (R67) and the phase window unit (R36, R37, R44, R45). -/
def changeRole (r : Role) (s : State) : State :=
  let old := s.tb.ref
  let s := s.updTb (Timebase.inRole r)
  let s := if old.isSome then raiseNotice .refChanged noSubject (portCode old) 0 s else s
  let s := clearPrevValid s
  match r with
  | .root => windowsRoot (setServo .master .role s)
  | .member => originToMember (setServo .free .role s)

/-! ### `tb.cfg` (R3, R4, R15, R29) -/

def roleOf : Nat → Option Role
  | 0 => some .root
  | 1 => some .member
  | _ => none

/-- The range check of `tb.cfg` (R3, R15, R29). Tstep below 256 is accepted. -/
def tbCfgInRange (r : TbCfgReq) : Bool :=
  optIn 0 1 r.role && optIn Config.epochMin Config.epochMax r.epoch && optIn 0 Config.errorMax r.tstep && optIn 0 15 r.p
    && optIn 0 15 r.i && optIn 0 65535 r.fmax && optIn 1 65535 r.smax && optIn 1 4096 r.spacingTol
    && optIn 0 1 r.autoRecover && optIn 0 65535 r.holdoverLimit

/-- Whether a divider divides an epoch length; a divider of 0 is not checked (R4). -/
def divides (div e : Nat) : Bool := div == 0 || e % div == 0

/-- The divider check of a `tb.cfg` that carries an E (R4). -/
def epochDividers (e : Nat) (s : State) : Bool :=
  if e ≠ s.tb.epoch then allSlots.all fun k => divides (nextDivider (s.slot k)) e
  else if s.tb.epochStaged.isSome then
    allSlots.all fun k => !boundEngaged s k || divides (((s.slot k).stagedClk.map (·.1)).getD 0) e
  else true

/-- The servo parameters after a `tb.cfg` (R15). -/
def newParams (r : TbCfgReq) (c : ServoParams) : ServoParams :=
  { tstep := (r.tstep.map (max 256)).getD c.tstep, p := r.p.getD c.p, i := r.i.getD c.i, fmax := r.fmax.getD c.fmax
    smax := r.smax.getD c.smax, spacingTol := r.spacingTol.getD c.spacingTol
    autoRecover := (r.autoRecover.map (· == 1)).getD c.autoRecover
    holdoverLimit := r.holdoverLimit.getD c.holdoverLimit }

/-- The servo parameters, and the F and S held clamped to the new limits at once (R15). -/
def Timebase.setParams (c : ServoParams) (t : Timebase) : Timebase :=
  { t with params := c, freq := clampTo c.fmax t.freq, slew := clampTo c.smax t.slew }

/-- Stage an E, or remove the staged one when it is the E in force (R3). -/
def Timebase.stageEpoch (e : Nat) (t : Timebase) : Timebase :=
  { t with epochStaged := if e = t.epoch then none else some e }

/-- The role field of an accepted `tb.cfg`: a value equal to the present role changes nothing (R10). -/
def applyRole (r : Option Nat) (s : State) : State :=
  match r.bind roleOf with
  | none => s
  | some role => if role = s.tb.role then s else changeRole role s

/-- The fields of an accepted `tb.cfg`, each by its rule (R29). -/
def applyTbCfg (r : TbCfgReq) (s : State) : State :=
  let s := applyRole r.role s
  let s := match r.epoch with
    | none => s
    | some e => s.updTb (Timebase.stageEpoch e)
  s.updTb fun t => t.setParams (newParams r t.params)

/-- The status of an accepted `tb.cfg`: STAGED if it staged an E (R29). -/
def tbCfgStatus (r : TbCfgReq) (s : State) : Status :=
  match r.epoch with
  | none => .ok
  | some e => if e = s.tb.epoch then .ok else .staged

/-- `tb.cfg` (R29). -/
def execTbCfg (r : TbCfgReq) (s : State) : Host.Outcome State Fault Refusal :=
  unlessReset s fun s =>
    if !tbCfgInRange r then s.refuse .badValue
    else if !(r.epoch.map fun e => epochDividers e s).getD true then s.refuse .divider
    else (applyTbCfg r s).reply (tbCfgStatus r s) []

/-! ### `tb.ref`, `tb.realign` (R30, R31) -/

/-- `tb.ref` (R30). -/
def execTbRef (mode port : Nat) (s : State) : Host.Outcome State Fault Refusal :=
  unlessReset s fun s =>
    match mode with
    | 0 => (s.updTb fun t => { t with refMode := .auto, chosen := none }).accept
    | 1 =>
      match portOf port with
      | none => s.refuse .badValue
      | some p => (s.updTb fun t => { t with refMode := .manual, chosen := some p }).accept
    | _ => s.refuse .badValue

/-- `tb.realign` (R31). -/
def execTbRealign (s : State) : Host.Outcome State Fault Refusal :=
  unlessReset s fun s =>
    if s.tb.role = .member ∧ s.tb.ref.isSome then
      (enterAcquire .realign (clearPrevValid (s.updTb fun t => { t with goodSpacings := 0 }))).accept
    else s.refuse .state

end Sys2Proof.Machine
end

