-- ==== Sys2Proof/Machine/TriggerRequests.lean ====
section
/-! DEFINITION. The trigger requests but `trg.list`, the firing of a queued trigger, and the TRIGGER and CANCEL cells
received (chapter 8). -/
namespace Sys2Proof.Machine

/-! ### Firing (R181) -/

/-- TRIGGER_FIRE (R181). An id that is not queued fires nothing. -/
def execTriggerFire (id : TrigId) (s : State) : Host.Outcome State Fault Refusal :=
  unlessReset s fun s =>
    match s.trg.queue.find? (·.id == id) with
    | none => s
    | some x => fireEntry x s

/-! ### Requests (R177, R184, R185, R188) -/

/-- The id the next `trg.sched` takes (R172). -/
def nextTrigId (s : State) : TrigId := BitVec.ofNat 16 (s.mgmt.frame * 1024 + s.trg.nextCount)

/-- A lateness of the form of R209: the late flag and 7 bytes. -/
def latenessBytes (late : Nat) : List Byte := boolByte (decide (1 ≤ late)) :: beBytes 7 late

/-- The reply of `trg.sched` by the outcome of R176 (R177, R209). -/
def schedReply (id : TrigId) (o : TakeOutcome) (s : State) : State :=
  let body := fun (code : Byte) (late : Nat) => beBytes 2 id.toNat ++ [code] ++ latenessBytes late
  match o with
  | .duplicate => s.reply .duplicate (body 0xFF 0)
  | .stale late => s.reply .tooLate (body 0xFF late)
  | .fired late => s.reply .ok (body 1 late)
  | .full => s.reply .queueFull (body 0xFF 0)
  | .queued => s.reply .ok (body 0 0)

/-- `trg.sched` (R177). -/
def execTrgSched (fireTime : Nat) (lines : Set8) (hop : Option Nat) (s : State) : Host.Outcome State Fault Refusal :=
  unlessReset s fun s =>
    if !(optIn 0 (2 ^ 56 - 1) (some fireTime) && optIn 0 31 hop) then s.refuse .badValue
    else if s.mgmt.frame = 0 then s.refuse .state
    else
      let id := nextTrigId s
      let c : TriggerCell :=
        { id := id, fireTime := BitVec.ofNat 56 fireTime, lines := lines, hop := hop.getD s.trg.defaultHop }
      let s := s.updTrg fun u => { u with nextCount := (u.nextCount + 1) % 1024 }
      let r := takeTrigger c none s
      schedReply id r.2 r.1

/-- The reply of `trg.cancel` by the outcome of R184 (R209). -/
def cancelReply (id : TrigId) (o : CancelOutcome) (s : State) : State :=
  let body := fun (code : Nat) => beBytes 2 id.toNat ++ [BitVec.ofNat 8 code]
  match o with
  | .cancelled => s.reply .ok (body 0)
  | .alreadyCancelled => s.reply .ok (body 1)
  | .tombstone => s.reply .ok (body 2)
  | .tooLate kind => s.reply .tooLate (body kind.code)

/-- `trg.cancel` (R184, R185). -/
def execTrgCancel (id : Nat) (hop : Option Nat) (s : State) : Host.Outcome State Fault Refusal :=
  unlessReset s fun s =>
    if !(optIn 0 65535 (some id) && optIn 0 31 hop) then s.refuse .badValue
    else
      let c : CancelCell := { id := BitVec.ofNat 16 id, hop := hop.getD s.trg.defaultHop }
      let r := judgeCancel c none s
      cancelReply c.id r.2 r.1

/-- `trg.cfg` (R188). DESIGN CHOICE (log 58): a request that carries neither field is accepted and changes nothing. -/
def execTrgCfg (lateWindow defaultHop : Option Nat) (s : State) : Host.Outcome State Fault Refusal :=
  unlessReset s fun s =>
    if optIn 0 65535 lateWindow && optIn 0 31 defaultHop then
      (s.updTrg fun u =>
        { u with lateWindow := lateWindow.getD u.lateWindow, defaultHop := defaultHop.getD u.defaultHop }).accept
    else s.refuse .badValue

/-! ### Cells received (R120, R178, R184) -/

/-- A TRIGGER received (R178): taken by R176, and dropped with TRIGGER_DROPPED when the queue is full. -/
def receiveTrigger (p : PortId) (c : TriggerCell) (s : State) : State :=
  let r := takeTrigger c (some p) s
  if r.2 = .full then
    raiseNotice .triggerDropped c.id.toNat p.val 0 (r.1.updTrg fun u => { u with dropped := u.dropped + 1 })
  else r.1

/-- A TRIGGER received (R78, R120, R178). -/
def execTriggerReceived (a : ArrivalPort) (c : TriggerCell) (s : State) : Host.Outcome State Fault Refusal :=
  unlessReset s fun s => whenBegun a (fun p s => if inService (s.port p) then receiveTrigger p c s else s) s

/-- A CANCEL received (R78, R120, R184). -/
def execCancelReceived (a : ArrivalPort) (c : CancelCell) (s : State) : Host.Outcome State Fault Refusal :=
  unlessReset s fun s => whenBegun a (fun p s => if inService (s.port p) then (judgeCancel c (some p) s).1 else s) s

end Sys2Proof.Machine
end

