-- ==== Sys2Proof/Machine/Dispatch.lean ====
section
/-! DEFINITION. `exec`: one arm per command, each a direct call of its meaning. -/
namespace Sys2Proof.Machine

/-- A command's effect on everything but the queue of commands. -/
def exec (i : Instr) (s : State) : Host.Outcome State Fault Refusal :=
  match i with
  | .resetPin asserted straps => Sys2Proof.Machine.execResetPin asserted straps s
  | .spiUnknownTransaction first clocked => Sys2Proof.Machine.execSpiUnknownTransaction first clocked s
  | .requestFrameWrite bytes => Sys2Proof.Machine.execRequestFrameWrite bytes s
  | .replyMadeReady => Sys2Proof.Machine.execReplyMadeReady s
  | .replyRead clocked => Sys2Proof.Machine.execReplyRead clocked s
  | .tbCfg r => Sys2Proof.Machine.execTbCfg r s
  | .tbRef mode port => Sys2Proof.Machine.execTbRef mode port s
  | .tbRealign => Sys2Proof.Machine.execTbRealign s
  | .tbNow => Sys2Proof.Machine.execTbNow s
  | .tbStat => Sys2Proof.Machine.execTbStat s
  | .tbOffset offset => Sys2Proof.Machine.execTbOffset offset s
  | .winCfg r => Sys2Proof.Machine.execWinCfg r s
  | .winHyst h => Sys2Proof.Machine.execWinHyst h s
  | .qualCfg r => Sys2Proof.Machine.execQualCfg r s
  | .qualMode qualifier mode => Sys2Proof.Machine.execQualMode qualifier mode s
  | .winStat => Sys2Proof.Machine.execWinStat s
  | .orgCfg r => Sys2Proof.Machine.execOrgCfg r s
  | .orgArm => Sys2Proof.Machine.execOrgArm s
  | .orgDisarm => Sys2Proof.Machine.execOrgDisarm s
  | .orgStat => Sys2Proof.Machine.execOrgStat s
  | .portCfg r => Sys2Proof.Machine.execPortCfg r s
  | .portCtlEnable port => Sys2Proof.Machine.execPortCtlEnable port s
  | .portCtlDisable port => Sys2Proof.Machine.execPortCtlDisable port s
  | .portCtlDrain port => Sys2Proof.Machine.execPortCtlDrain port s
  | .portCtlResume port => Sys2Proof.Machine.execPortCtlResume port s
  | .portCtlRetrain port => Sys2Proof.Machine.execPortCtlRetrain port s
  | .portStat port => Sys2Proof.Machine.execPortStat port s
  | .xmitCfg creditTimeout retryLimit => Sys2Proof.Machine.execXmitCfg creditTimeout retryLimit s
  | .xmitStat port => Sys2Proof.Machine.execXmitStat port s
  | .strmOpen r => Sys2Proof.Machine.execStrmOpen r s
  | .strmStart entry => Sys2Proof.Machine.execStrmStart entry s
  | .strmStop entry => Sys2Proof.Machine.execStrmStop entry s
  | .strmClose entry => Sys2Proof.Machine.execStrmClose entry s
  | .strmWindow entry base len => Sys2Proof.Machine.execStrmWindow entry base len s
  | .strmDest r => Sys2Proof.Machine.execStrmDest r s
  | .strmStat entry => Sys2Proof.Machine.execStrmStat entry s
  | .slotCfg r => Sys2Proof.Machine.execSlotCfg r s
  | .slotClk r => Sys2Proof.Machine.execSlotClk r s
  | .slotStat sl validLevel => Sys2Proof.Machine.execSlotStat sl validLevel s
  | .trgSched fireTime lines hop => Sys2Proof.Machine.execTrgSched fireTime lines hop s
  | .trgCancel id hop => Sys2Proof.Machine.execTrgCancel id hop s
  | .trgCfg lateWindow defaultHop => Sys2Proof.Machine.execTrgCfg lateWindow defaultHop s
  | .trgList part first => Sys2Proof.Machine.execTrgList part first s
  | .hubId => Sys2Proof.Machine.execHubId s
  | .hubFrame frame => Sys2Proof.Machine.execHubFrame frame s
  | .hubResetAll rootStrap portEnStrap => Sys2Proof.Machine.execHubResetAll rootStrap portEnStrap s
  | .hubResetTraffic => Sys2Proof.Machine.execHubResetTraffic s
  | .ntcMask r => Sys2Proof.Machine.execNtcMask r s
  | .ntcGet count => Sys2Proof.Machine.execNtcGet count s
  | .epochBoundary => Sys2Proof.Machine.execEpochBoundary s
  | .sampleInstant sl valid data => Sys2Proof.Machine.execSampleInstant sl valid data s
  | .triggerFire id => Sys2Proof.Machine.execTriggerFire id s
  | .startRise => Sys2Proof.Machine.execStartRise s
  | .startFall => Sys2Proof.Machine.execStartFall s
  | .refPulseEdge => Sys2Proof.Machine.execRefPulseEdge s
  | .portPresentRise port => Sys2Proof.Machine.execPortPresentRise port s
  | .portPresentFall port => Sys2Proof.Machine.execPortPresentFall port s
  | .portSignalRise port => Sys2Proof.Machine.execPortSignalRise port s
  | .portSignalFall port => Sys2Proof.Machine.execPortSignalFall port s
  | .portDebounceExpiry port => Sys2Proof.Machine.execPortDebounceExpiry port s
  | .signalWaitExpiry port => Sys2Proof.Machine.execSignalWaitExpiry port s
  | .graceExpiry port => Sys2Proof.Machine.execGraceExpiry port s
  | .drainTimeout port => Sys2Proof.Machine.execDrainTimeout port s
  | .drainComplete port => Sys2Proof.Machine.execDrainComplete port s
  | .silenceTimeout => Sys2Proof.Machine.execSilenceTimeout s
  | .slotPresentRise sl => Sys2Proof.Machine.execSlotPresentRise sl s
  | .slotDebounceExpiry sl => Sys2Proof.Machine.execSlotDebounceExpiry sl s
  | .slotPresentFall sl => Sys2Proof.Machine.execSlotPresentFall sl s
  | .cellBadCrc port => Sys2Proof.Machine.execCellBadCrc port s
  | .cellUnknownKind port => Sys2Proof.Machine.execCellUnknownKind port s
  | .markerReceived port c arrival => Sys2Proof.Machine.execMarkerReceived port c arrival s
  | .probeReceived port c arrival => Sys2Proof.Machine.execProbeReceived port c arrival s
  | .echoReceived port c arrival => Sys2Proof.Machine.execEchoReceived port c arrival s
  | .creditReceived port c => Sys2Proof.Machine.execCreditReceived port c s
  | .queryReceived port rackId => Sys2Proof.Machine.execQueryReceived port rackId s
  | .sampleReceived port c => Sys2Proof.Machine.execSampleReceived port c s
  | .triggerReceived port c => Sys2Proof.Machine.execTriggerReceived port c s
  | .cancelReceived port c => Sys2Proof.Machine.execCancelReceived port c s
  | .quiesceReceived port => Sys2Proof.Machine.execQuiesceReceived port s
  | .resumeReceived port => Sys2Proof.Machine.execResumeReceived port s
  | .cellDeparture port => Sys2Proof.Machine.execCellDeparture port s
  | .cellCompletion port => Sys2Proof.Machine.execCellCompletion port s
  | .oscillatorTick => Sys2Proof.Machine.execOscillatorTick s

end Sys2Proof.Machine
end

