-- ==== Sys2Proof/Safety.lean ====
section
/-! DEFINITION. When the spec lets a command happen: `occurs c s`. A sender that keeps to it sends the hub only what
happens to it or in it. `exec` gives every command a meaning in every state (log 1); a run is faithful when each
command occurs in the state it is taken in. -/
namespace Sys2Proof.Safety

open Sys2Proof.Machine

/-- A timer has run out and waits for its expiry to be taken. -/
def ranOut : Option Nat → Bool
  | some 0 => true
  | _ => false

/-- The request in decode spells this command, and its owner has not answered (R191, R194). -/
def inDecodeIs (pins : Pins) (i : Instr) (s : State) : Bool :=
  match s.mgmt.inDecode, s.mgmt.answer with
  | some d, none =>
    match requestOf pins d.kind d.body with
    | .ok j => j == i
    | .error _ => false
  | _, _ => false

/-- The pins a request reads play no part in its meaning but for the requests that carry them. -/
def noPins : Pins := { rootStrap := false, portEnStrap := false, slotValid := 0 }

/-- No timer has run out, no boundary or sample instant of the present tick is left, and no queued trigger's T has been
passed: the hub's own events of this tick are done, so the next tick may come. -/
def tickDone (s : State) : Bool :=
  !s.tb.dueBoundary && s.tb.dueSample == 0 && !ranOut s.tb.silence
    && (allPorts.all fun p =>
      !ranOut (s.port p).debounce && !ranOut (s.port p).signalWait && !ranOut (s.port p).grace
        && !ranOut (s.port p).drain)
    && (allSlots.all fun k => !ranOut (s.slot k).debounce)
    && s.trg.queue.all fun x => !tickPassed s.tb.advFrom s.now x.fireTime

/-- The next queued trigger to fire: those whose T the advance passed, in queue order (R181). -/
def nextToFire (s : State) : Option TrigId :=
  (s.trg.queue.find? fun x => tickPassed s.tb.advFrom s.now x.fireTime).map (·.id)

/-- A port has a cell it may start (R77, R108). -/
def mayStart (s : State) (p : PortId) : Bool :=
  let q := s.port p
  takesCells q && q.flight.isNone &&
    (!q.timingQ.isEmpty || (q.link != .quiesced && !q.ctrlQ.isEmpty)
      || (inService q && (arbiterGrant s p).isSome))

/-- Whether a sample instant of the present advance may be taken now. A boundary and a sample instant of one tick come in
either order (R138), but a staged clock comes into force at the boundary for that advance's own instant (R160), so a slot
that has one staged takes the boundary first (log 3). -/
def mayTakeInstant (s : State) (k : SlotId) : Bool :=
  inSet s.tb.dueSample k.val && (!s.tb.dueBoundary || (s.slot k).stagedClk.isNone)

/-- Whether the spec lets a command happen in a state. While RESET is asserted no transaction is taken and time stands still
(R192, R200); held at reset values, the hub has no request in decode, no timer running and nothing else of its own due. The
instants at which pins change and cells arrive are the outside
world's: a cell may arrive on a port in any state, and its command says whether the port took cells as it began. -/
def occurs (i : Instr) (s : State) : Bool :=
  match i with
  | .resetPin asserted _ => asserted != s.inReset
  | .spiUnknownTransaction first _ => !s.inReset && first != 0xC3 && first != 0x3C
  | .requestFrameWrite _ => !s.inReset
  | .replyMadeReady => s.mgmt.inDecode.isSome && s.mgmt.answer.isSome
  | .replyRead _ => !s.inReset
  | .slotStat k v => inDecodeIs { noPins with slotValid := if v then bitOf 8 k else 0 } i s
  | .hubResetAll r p => inDecodeIs { noPins with rootStrap := r, portEnStrap := p } i s
  | .epochBoundary => s.tb.dueBoundary
  | .sampleInstant k _ _ => mayTakeInstant s k
  | .triggerFire id => nextToFire s == some id
  | .startRise => !s.org.startLevel
  | .startFall => s.org.startLevel
  | .refPulseEdge => true
  | .portPresentRise p => !(s.port p).present
  | .portPresentFall p => (s.port p).present
  | .portSignalRise p => !(s.port p).signal
  | .portSignalFall p => (s.port p).signal
  | .portDebounceExpiry p => ranOut (s.port p).debounce
  | .signalWaitExpiry p => ranOut (s.port p).signalWait
  | .graceExpiry p => ranOut (s.port p).grace
  | .drainTimeout p => ranOut (s.port p).drain
  | .drainComplete p => (s.port p).link == .draining && drainDone s p
  | .silenceTimeout => ranOut s.tb.silence
  | .slotPresentRise k => !(s.slot k).present
  | .slotDebounceExpiry k => ranOut (s.slot k).debounce
  | .slotPresentFall k => (s.slot k).present
  | .cellBadCrc _ => true
  | .cellUnknownKind _ => true
  | .markerReceived _ c _ => cellInRange (.marker c)
  | .probeReceived _ c _ => cellInRange (.probe c)
  | .echoReceived _ c _ => cellInRange (.echo c)
  | .creditReceived _ c => cellInRange (.credit c)
  | .queryReceived _ r => cellInRange (.query r)
  | .sampleReceived _ c => cellInRange (.sample c)
  | .triggerReceived _ c => cellInRange (.trigger c)
  | .cancelReceived _ c => cellInRange (.cancel c)
  | .quiesceReceived _ => true
  | .resumeReceived _ => true
  | .cellDeparture p => mayStart s p
  | .cellCompletion p => (s.port p).flight.isSome
  | .oscillatorTick => !s.inReset && tickDone s
  | .tbCfg _ => inDecodeIs noPins i s
  | .tbRef _ _ => inDecodeIs noPins i s
  | .tbRealign => inDecodeIs noPins i s
  | .tbNow => inDecodeIs noPins i s
  | .tbStat => inDecodeIs noPins i s
  | .tbOffset _ => inDecodeIs noPins i s
  | .winCfg _ => inDecodeIs noPins i s
  | .winHyst _ => inDecodeIs noPins i s
  | .qualCfg _ => inDecodeIs noPins i s
  | .qualMode _ _ => inDecodeIs noPins i s
  | .winStat => inDecodeIs noPins i s
  | .orgCfg _ => inDecodeIs noPins i s
  | .orgArm => inDecodeIs noPins i s
  | .orgDisarm => inDecodeIs noPins i s
  | .orgStat => inDecodeIs noPins i s
  | .portCfg _ => inDecodeIs noPins i s
  | .portCtlEnable _ => inDecodeIs noPins i s
  | .portCtlDisable _ => inDecodeIs noPins i s
  | .portCtlDrain _ => inDecodeIs noPins i s
  | .portCtlResume _ => inDecodeIs noPins i s
  | .portCtlRetrain _ => inDecodeIs noPins i s
  | .portStat _ => inDecodeIs noPins i s
  | .xmitCfg _ _ => inDecodeIs noPins i s
  | .xmitStat _ => inDecodeIs noPins i s
  | .strmOpen _ => inDecodeIs noPins i s
  | .strmStart _ => inDecodeIs noPins i s
  | .strmStop _ => inDecodeIs noPins i s
  | .strmClose _ => inDecodeIs noPins i s
  | .strmWindow _ _ _ => inDecodeIs noPins i s
  | .strmDest _ => inDecodeIs noPins i s
  | .strmStat _ => inDecodeIs noPins i s
  | .slotCfg _ => inDecodeIs noPins i s
  | .slotClk _ => inDecodeIs noPins i s
  | .trgSched _ _ _ => inDecodeIs noPins i s
  | .trgCancel _ _ => inDecodeIs noPins i s
  | .trgCfg _ _ => inDecodeIs noPins i s
  | .trgList _ _ => inDecodeIs noPins i s
  | .hubId => inDecodeIs noPins i s
  | .hubFrame _ => inDecodeIs noPins i s
  | .hubResetTraffic => inDecodeIs noPins i s
  | .ntcMask _ => inDecodeIs noPins i s
  | .ntcGet _ => inDecodeIs noPins i s

/-! ### What the statements speak of -/

/-- The state with the request in decode answered, and nothing else changed (R194, R197). -/
def answered (st : Status) (body : List Byte) (s : State) : State :=
  { s with mgmt := { s.mgmt with answer := some { status := st, body := body } } }

/-- The state after a number of oscillator ticks and nothing else. -/
def afterTicks : Nat → State → State
  | 0, s => s
  | n + 1, s =>
    match exec .oscillatorTick s with
    | .next t => afterTicks n t
    | .fault _ => s
    | .refused _ => s

/-- The record of a notice of a kind, stamped now (R202). -/
def noticeNow (k : NoticeKind) (subject : Nat) (detail : Int) (extra : Int) (s : State) : Notice :=
  { kind := k, subject := BitVec.ofNat 16 subject, detail := detail, stamp := wholeTicks s.tb.reading,
    extra := BitVec.ofInt 32 extra }

/-- A notice of a kind can be stored: the kind is enabled and the list has room (R202). -/
def canStore (k : NoticeKind) (s : State) : Prop :=
  s.mgmt.masked.getLsbD k.code = false ∧ s.mgmt.notices.length < 32

/-- The flood of a cell (R179, R185): the pending-forward set holds the ACTIVE ports but the arrival port while the hop limit is
above 0; each port of it has the cell at the back of its control queue, `before` being the queues the flood finds, or is owed it
where 16 cells waited; and nothing else of a port is changed. -/
def floods (hop : Nat) (arrival : Option PortId) (cell : ControlCell) (before : PortId → List ControlCell) (s t : State)
    (pend owed : Set4) : Prop :=
  ∀ p : PortId,
    pend.getLsbD p.val = (decide (hop ≠ 0) && (s.port p).link == .active && decide (arrival ≠ some p)) ∧
    owed.getLsbD p.val = (pend.getLsbD p.val && decide (16 ≤ (before p).length)) ∧
    let sent := if pend.getLsbD p.val && decide ((before p).length < 16) then [cell] else []
    t.port p = { s.port p with ctrlQ := before p ++ sent }

/-! ### Invariants -/

/-- R200: while RESET is asserted every block is at its reset values. -/
def heldInReset (s : State) : Prop := s.inReset = true → holdBlocks s = s

/-- R202: the notice list holds at most 32 notices. -/
def noticesBounded (s : State) : Prop := s.mgmt.notices.length ≤ 32

/-- R13: F stays within Fmax and S within Smax. -/
def servoWithinLimits (s : State) : Prop :=
  s.tb.freq.natAbs ≤ s.tb.params.fmax ∧ s.tb.slew.natAbs ≤ s.tb.params.smax

/-- R4, R160: E is a whole multiple of every divider in force that is not 0; and a staged E differs from E and is a
whole multiple of every divider that the next boundary leaves in force. -/
def dividersDivide (s : State) : Prop :=
  (∀ k : SlotId, (s.slot k).divider = 0 ∨ s.tb.epoch % (s.slot k).divider = 0) ∧
  ∀ e, s.tb.epochStaged = some e →
    e ≠ s.tb.epoch ∧
      ∀ k : SlotId,
        ((s.slot k).stagedClk.map (·.1)).getD (s.slot k).divider = 0 ∨
          e % ((s.slot k).stagedClk.map (·.1)).getD (s.slot k).divider = 0

/-- R105, R106: a timing queue holds at most 4 cells and at most one MARKER, and a control queue at most 16. -/
def queuesBounded (s : State) : Prop :=
  ∀ p : PortId,
    (s.port p).timingQ.length ≤ 4 ∧ ((s.port p).timingQ.filter (· = .marker)).length ≤ 1 ∧
      (s.port p).ctrlQ.length ≤ 16

/-- R126, R140, R152, for one entry: created is the sum of the fates and the blocks held; the blocks held fit the window in
force; a staged window holds at least 2 blocks; a CLOSED entry holds none; and hold is asserted in RUNNING alone. -/
def entryConserves (e : Entry) : Prop :=
  e.counters.created =
      e.counters.retired + e.counters.skipped + e.counters.flushed + e.counters.gated + e.counters.unrouted +
        BitVec.ofNat 32 e.ring.length ∧
    (e.state ≠ .closed → 2 ≤ e.len ∧ e.ring.length ≤ e.len) ∧
    (∀ w, e.stagedWin = some w → 2 ≤ w.2) ∧
    (e.state = .closed → e.ring = []) ∧
    (e.hold = true → e.state = .running)

/-- R126, R140, R152, for every entry. -/
def blocksConserved (s : State) : Prop := ∀ en : EntryId, entryConserves (s.entry en)

/-- R173, R174: at most 16 queued triggers and 16 records, and no id twice among them. -/
def triggerIdsDistinct (s : State) : Prop :=
  s.trg.queue.length ≤ 16 ∧ s.trg.history.length ≤ 16 ∧
    (s.trg.queue.map (·.id) ++ s.trg.history.map (·.id)).Nodup

/-- The sample buffer keeps its canonical form (log 6). -/
def bufferCanonical (s : State) : Prop := Memory.wf s.buffer = true

end Sys2Proof.Safety
end

