-- ==== Sys2Proof/Certificates/Slice0/Obligations.lean ====
section
/-! DEFINITION. The statements for the provers, in the order of OBLIGATIONS.json. -/
open Sys2Proof Sys2Proof.Machine Sys2Proof.Safety

/-! ### The machine -/

/-- A step takes the command at the front of the queue and runs it on the queue's rest; on an empty queue the block idles
(log 2, 4: the model's choice). -/
def Obligations.StepRunsFrontCommand : Prop :=
  (∀ (c : Instr) (rest : List Instr) (s : State),
      step { s with pending := c :: rest } = exec c { s with pending := rest }) ∧
  (∀ s : State, s.pending = [] → step s = .next s)

/-- Every command completes in every state, none of them touches the queue of commands, and RESET_PIN alone moves the level of
RESET (log 1, 4, 10, 63: the model's choice; the spec gives the part no stop). -/
def Obligations.EveryCommandCompletes : Prop :=
  ∀ (c : Instr) (s : State), ∃ t, exec c s = .next t ∧ t.pending = s.pending ∧
    ((∀ a straps, c ≠ .resetPin a straps) → t.inReset = s.inReset)

/-- The sample buffer is written by sample instants and by SAMPLE cells received, and by nothing else; no reset
clears it; and every step keeps its canonical form (R125, R135, R144; log 6). -/
def Obligations.BufferKept : Prop :=
  (∀ (c : Instr) (s t : State), exec c s = .next t →
    (∀ k v d, c ≠ .sampleInstant k v d) → (∀ a x, c ≠ .sampleReceived a x) → t.buffer = s.buffer) ∧
  ∀ s t : State, bufferCanonical s → step s = .next t → bufferCanonical t

/-- Every step keeps the notice list within 32 notices, and the queues of every port within their depths with one MARKER at
most (R105, R106, R202). -/
def Obligations.CapacitiesHold : Prop :=
  (∀ s t : State, noticesBounded s → step s = .next t → noticesBounded t) ∧
  (∀ s t : State, queuesBounded s → step s = .next t → queuesBounded t)

/-- F stays within Fmax and S within Smax (R13, R15). -/
def Obligations.ServoStaysWithinLimits : Prop := ∀ s t : State, servoWithinLimits s → step s = .next t → servoWithinLimits t

/-- E in force stays a whole multiple of every divider in force, through every change of E and of clocks (R4, R159,
R160). -/
def Obligations.DividersAlwaysDivide : Prop := ∀ s t : State, dividersDivide s → step s = .next t → dividersDivide t

/-- Blocks are conserved: created = retired + skipped + flushed + gated + unrouted + held, the blocks held fit the window in
force, a CLOSED entry holds none, and hold is asserted in RUNNING alone (R126, R140, R152). -/
def Obligations.BlocksStayConserved : Prop := ∀ s t : State, blocksConserved s → step s = .next t → blocksConserved t

/-- The trigger queue and the history hold at most 16 each, and no id twice among them (R173, R174). -/
def Obligations.TriggerIdsStayDistinct : Prop := ∀ s t : State, triggerIdsDistinct s → step s = .next t → triggerIdsDistinct t

/-- The state after reset has every invariant stated above, and RESET is released there. -/
def Obligations.ResetMeetsInvariants : Prop :=
  bufferCanonical State.reset ∧ noticesBounded State.reset ∧ servoWithinLimits State.reset ∧
    dividersDivide State.reset ∧ queuesBounded State.reset ∧ blocksConserved State.reset ∧
    triggerIdsDistinct State.reset ∧ State.reset.inReset = false ∧ heldInReset State.reset

/-! ### The timebase (chapter 1) -/

/-- One oscillator tick adds G/E sub-ticks with the remainder carried, counts every timer down, ends the one-tick
outputs, and changes nothing else. It makes a sample instant of a slot due exactly when the advance passes a value of that
slot's grid: a whole tick that leaves the phase when divided by the divider, above the old reading up to and including the new
one, counted forward modulo 2^56; a divider of 0 has no grid. That an instant once due stays so until its command is taken, that
a timer which has run out stays at 0, and that a clock edge lasts one tick, is the model's choice (R1, R18, R71, R155, R158,
R166, R168, R182; log 1, 24, 45). -/
def Obligations.OscillatorTickAdvances : Prop :=
  (∀ s : State, s.inReset = false → ∃ t, exec .oscillatorTick s = .next t ∧
    t = { s with tb := t.tb, ports := t.ports, slots := t.slots, entries := t.entries } ∧
    t.tb = { s.tb with
      reading := s.tb.reading + BitVec.ofNat 64 ((s.tb.remainder + s.tb.gain) / s.tb.epoch)
      remainder := (s.tb.remainder + s.tb.gain) % s.tb.epoch
      silence := s.tb.silence.map (· - 1), advFrom := wholeTicks s.tb.reading
      dueBoundary := t.tb.dueBoundary, dueSample := t.tb.dueSample } ∧
    (∀ p : PortId, t.port p = { s.port p with
      debounce := (s.port p).debounce.map (· - 1), signalWait := (s.port p).signalWait.map (· - 1)
      grace := (s.port p).grace.map (· - 1), drain := (s.port p).drain.map (· - 1) }) ∧
    (∀ k : SlotId, t.slot k = { s.slot k with
      debounce := (s.slot k).debounce.map (· - 1), sclkEdge := false, trigPulse := false, strobePulse := false }) ∧
    (∀ en : EntryId, t.entry en = { s.entry en with waiting := [] }) ∧
    ∀ k : SlotId, (t.tb.dueSample.getLsbD k.val = true ↔ s.tb.dueSample.getLsbD k.val = true ∨
      (gridPassed (wholeTicks s.tb.reading) (wholeTicks t.tb.reading) (s.slot k).divider (s.slot k).phase).isSome)) ∧
  ∀ (v v' : Tick) (m phi : Nat),
    let passed := fun x : Tick => x.toNat % m = phi ∧ 1 ≤ (x - v).toNat ∧ (x - v).toNat ≤ (v' - v).toNat
    (m = 0 → gridPassed v v' m phi = none) ∧
    (0 < m → phi < m →
      ((gridPassed v v' m phi).isSome ↔ ∃ x, passed x) ∧ ∀ x, gridPassed v v' m phi = some x → passed x)

/-- Over E consecutive oscillator ticks with one G and one E the timebase gains exactly G sub-ticks, and the remainder
comes back to where it was (R1). -/
def Obligations.EpochGainsExactlyG : Prop :=
  ∀ s : State, s.inReset = false → s.tb.remainder < s.tb.epoch →
    (afterTicks s.tb.epoch s).tb.reading = s.tb.reading + BitVec.ofNat 64 s.tb.gain ∧
      (afterTicks s.tb.epoch s).tb.remainder = s.tb.remainder

/-- An advance from v to v' makes an epoch boundary due exactly when a multiple of E lies above v up to and including v'; an
advance that wraps passes 0. At the boundary a staged E comes into force with the remainder at 0, and G is fixed from the
E in force there and the F and S held before that boundary's reference selection; the reading stays. That the boundary stays
due until its command is taken, and that G comes before the selection, are the model's choice (R1, R2, R3; log 1, log 11). -/
def Obligations.BoundaryPassedAndGain : Prop :=
  (∀ s t : State, s.inReset = false → exec .oscillatorTick s = .next t → 0 < s.tb.epoch →
      let v := (wholeTicks s.tb.reading).toNat
      let v' := (wholeTicks t.tb.reading).toNat
      (v ≤ v' → (t.tb.dueBoundary = true ↔ s.tb.dueBoundary = true ∨ ∃ n, v < n * s.tb.epoch ∧ n * s.tb.epoch ≤ v')) ∧
        (v' < v → t.tb.dueBoundary = true)) ∧
  (∀ s : State, s.inReset = false → ∃ t, exec .epochBoundary s = .next t ∧
      t.tb.reading = s.tb.reading ∧ t.tb.epoch = s.tb.epochStaged.getD s.tb.epoch ∧ t.tb.epochStaged = none ∧
      t.tb.remainder = (if s.tb.epochStaged.isSome then 0 else s.tb.remainder) ∧
      (s.tb.role = .root → t.tb.gain = t.tb.epoch * 256) ∧
      (s.tb.role = .member → t.tb.gain = ((t.tb.epoch * 256 : Nat) + s.tb.freq + s.tb.slew).toNat) ∧
      t.tb.dueBoundary = false ∧ t.buffer = s.buffer ∧ t.xmit = s.xmit ∧ t.pending = s.pending)

/-- round-shift(x, k) is the nearest multiple of 2^k over 2^k, with ties away from zero (00_scope.md). -/
def Obligations.RoundShiftIsNearest : Prop :=
  ∀ (x : Int) (k : Nat), 1 ≤ k →
    2 * (x - roundShift x k * 2 ^ k).natAbs ≤ 2 ^ k ∧
      (2 * (x - roundShift x k * 2 ^ k).natAbs = 2 ^ k → x.natAbs < (roundShift x k * 2 ^ k).natAbs)

/-- A `tb.cfg` with an E alone: refused with DIVIDER when an E other than the one in force is not a multiple of a divider that
the next boundary leaves in force; otherwise staged. The E in force removes a staged E with OK, unless the staged divider of a
slot bound to a RUNNING, STALLED or CLOSING entry does not divide it. One with Fmax and Smax clamps the F and S held at once,
and leaves G; a Tstep below 256 is clamped up; any other field out of its range refuses the request. That an auto-recover byte
other than 0 and 1 is out of range is the model's choice (R3, R4, R15, R29; log 14). -/
def Obligations.TbCfgSetsTimebase : Prop :=
  (∀ (e : Nat) (s : State), s.inReset = false → 4096 ≤ e → e ≤ 16777215 → e ≠ s.tb.epoch → servoWithinLimits s →
      let next := fun k : SlotId => ((s.slot k).stagedClk.map (·.1)).getD (s.slot k).divider
      ((∀ k, next k = 0 ∨ e % next k = 0) →
        exec (.tbCfg { epoch := some e }) s =
          .next (answered .staged [] { s with tb := { s.tb with epochStaged := some e } })) ∧
      ((∃ k, next k ≠ 0 ∧ e % next k ≠ 0) →
        exec (.tbCfg { epoch := some e }) s = .next (answered .divider [] s))) ∧
  (∀ (fmax smax : Nat) (s : State), s.inReset = false → fmax ≤ 65535 → 1 ≤ smax → smax ≤ 65535 →
      exec (.tbCfg { fmax := some fmax, smax := some smax }) s =
        .next (answered .ok [] { s with tb := { s.tb with
          params := { s.tb.params with fmax := fmax, smax := smax }
          freq := max (-(fmax : Int)) (min fmax s.tb.freq), slew := max (-(smax : Int)) (min smax s.tb.slew) } })) ∧
  (∀ s : State, s.inReset = false → 4096 ≤ s.tb.epoch → s.tb.epoch ≤ 16777215 → servoWithinLimits s →
      let bound := fun k : SlotId =>
        ∃ en, ((s.entry en).source = .slot k ∨ (s.entry en).destSlots.getLsbD k.val = true) ∧
          ((s.entry en).state = .running ∨ (s.entry en).state = .stalled ∨ (s.entry en).state = .closing)
      let clash := ∃ k div phi, bound k ∧ (s.slot k).stagedClk = some (div, phi) ∧ div ≠ 0 ∧ s.tb.epoch % div ≠ 0
      ((s.tb.epochStaged = none ∨ ¬clash) → exec (.tbCfg { epoch := some s.tb.epoch }) s =
        .next (answered .ok [] { s with tb := { s.tb with epochStaged := none } })) ∧
      (s.tb.epochStaged ≠ none → clash →
        exec (.tbCfg { epoch := some s.tb.epoch }) s = .next (answered .divider [] s))) ∧
  (∀ (v : Nat) (s : State), s.inReset = false → v ≤ 8388607 → servoWithinLimits s → exec (.tbCfg { tstep := some v }) s =
      .next (answered .ok [] { s with tb := { s.tb with params := { s.tb.params with tstep := max 256 v } } })) ∧
  ∀ (r : TbCfgReq) (s : State), s.inReset = false →
    let out := fun (lo hi : Nat) (o : Option Nat) => ∃ v, o = some v ∧ (v < lo ∨ hi < v)
    (out 0 1 r.role ∨ out 4096 16777215 r.epoch ∨ out 0 8388607 r.tstep ∨ out 0 15 r.p ∨ out 0 15 r.i ∨
      out 0 65535 r.fmax ∨ out 1 65535 r.smax ∨ out 1 4096 r.spacingTol ∨ out 0 1 r.autoRecover ∨
      out 0 65535 r.holdoverLimit) → exec (.tbCfg r) s = .next (answered .badValue [] s)

/-- A change of role by `tb.cfg` clears the servo and the reference, keeps the reading and G, and frees the origin unit on the
way to MEMBER. `tb.realign` on a member with a reference puts the servo in ACQUIRE; otherwise it is refused with STATE. That
had-reference, the good-spacing count and the silence timer are cleared at either change, and that the change to MEMBER forgets
the boundaries that a `tb.offset` had skipped, is the model's choice (R10, R31, R37, R67; log 46, 51). -/
def Obligations.RoleAndRealign : Prop :=
  (∀ s : State, s.inReset = false →
      (s.tb.role = .member → ∃ t, exec (.tbCfg { role := some 0 }) s = .next t ∧
        t.tb = { s.tb with
          role := .root, servo := .master, ref := none, hadRef := false, freq := 0, slew := 0, excursions := 0
          goodSpacings := 0, spacing := none, silence := none } ∧
        t.org = s.org ∧ t.win.prevValid = false ∧
        (∀ w : WinId, t.win.wins[w].inside = false ∧ t.win.wins[w].staged = none ∧
          t.win.wins[w].inForce = s.win.wins[w].staged.getD s.win.wins[w].inForce) ∧
        (s.win.stamp.mode = .auto → t.win.stamp.on = !(s.win.stamp.originRequired && !s.org.aligned)) ∧
        t = { s with tb := t.tb, win := t.win, mgmt := t.mgmt } ∧ t.mgmt.answer = some { status := .ok, body := [] }) ∧
      (s.tb.role = .root → ∃ t, exec (.tbCfg { role := some 1 }) s = .next t ∧
        t.tb = { s.tb with
          role := .member, servo := .free, ref := none, hadRef := false, freq := 0, slew := 0, excursions := 0
          goodSpacings := 0, spacing := none, silence := none } ∧
        t.org = { s.org with
          state := .idle, settleCtr := 0, settleShift := 0, pulseSeen := false, disarmPending := false, aligned := false } ∧
        (s.tb.servo ≠ .free → s.win.stamp.mode = .auto → t.win.stamp.on = false) ∧
        t = { s with tb := t.tb, win := t.win, org := t.org, mgmt := t.mgmt } ∧
        t.mgmt.answer = some { status := .ok, body := [] })) ∧
  (∀ s : State, s.inReset = false →
      (s.tb.role = .member → s.tb.ref.isSome → ∃ t, exec .tbRealign s = .next t ∧
        t.tb = { s.tb with
          servo := .acquire, excursions := 0, goodSpacings := 0, silence := some (3 * s.tb.epoch) } ∧
        t.win.prevValid = false ∧ t = { s with tb := t.tb, win := t.win, mgmt := t.mgmt } ∧
        t.mgmt.answer = some { status := .ok, body := [] }) ∧
      ((s.tb.role = .root ∨ s.tb.ref = none) → exec .tbRealign s = .next (answered .state [] s)))

/-- `tb.ref`, `win.hyst`, `port.cfg` and `xmit.cfg` store what they carry at once, keep what they do not carry, and refuse a
value out of range; a debounce of 0 is stored as 1, and Dmin and Dmax are judged as they would stand. That AUTO sets the
chosen port to none is the model's choice (R30, R51, R99, R122, R209; log 32). -/
def Obligations.SettingsAreStored : Prop :=
  (∀ (n : Nat) (s : State), s.inReset = false →
      exec (.tbRef 0 n) s = .next (answered .ok [] { s with tb := { s.tb with refMode := .auto, chosen := none } }) ∧
      (∀ p : PortId, exec (.tbRef 1 p.val) s =
        .next (answered .ok [] { s with tb := { s.tb with refMode := .manual, chosen := some p } })) ∧
      (4 ≤ n → exec (.tbRef 1 n) s = .next (answered .badValue [] s)) ∧
      ∀ mode, 2 ≤ mode → exec (.tbRef mode n) s = .next (answered .badValue [] s)) ∧
  (∀ (h : Nat) (s : State), s.inReset = false →
      (h ≤ 65535 → exec (.winHyst h) s = .next (answered .ok [] { s with win := { s.win with hyst := h } })) ∧
      (65535 < h → exec (.winHyst h) s = .next (answered .badValue [] s))) ∧
  (∀ (r : PortCfgReq) (s : State), s.inReset = false →
      4 ≤ r.port → exec (.portCfg r) s = .next (answered .badValue [] s)) ∧
  (∀ (p : PortId) (r : PortCfgReq) (s : State), s.inReset = false → r.port = p.val →
      let out := fun (lo hi : Nat) (o : Option Nat) => ∃ v, o = some v ∧ (v < lo ∨ hi < v)
      let old := (s.port p).cfg
      let bad := out 0 255 r.debounce ∨ out 10 5000 r.signalWait ∨ out 0 1000 r.grace ∨ out 1 65535 r.drainTimeout ∨
        out 1 255 r.threshold ∨ out 0 1048575 r.dmin ∨ out 0 1048575 r.dmax ∨ r.dmax.getD old.dmax < r.dmin.getD old.dmin
      (bad → exec (.portCfg r) s = .next (answered .badValue [] s)) ∧
      (¬bad → ∃ t, exec (.portCfg r) s = .next t ∧ (∀ q, q ≠ p → t.port q = s.port q) ∧
        t = { answered .ok [] s with ports := t.ports } ∧ t.port p = { s.port p with cfg := {
          debounce := (r.debounce.map fun n => if n = 0 then 1 else n).getD old.debounce
          signalWait := r.signalWait.getD old.signalWait, grace := r.grace.getD old.grace
          drainTimeout := r.drainTimeout.getD old.drainTimeout, threshold := r.threshold.getD old.threshold
          dmin := r.dmin.getD old.dmin, dmax := r.dmax.getD old.dmax } })) ∧
  (∀ (n : Nat) (s : State), s.inReset = false →
      (n ≤ 255 → exec (.xmitCfg (some n) none) s =
        .next (answered .ok [] { s with xmit := { s.xmit with creditTimeout := n } })) ∧
      (n ≤ 15 → exec (.xmitCfg none (some n)) s =
        .next (answered .ok [] { s with xmit := { s.xmit with retryLimit := n } })) ∧
      (255 < n → exec (.xmitCfg (some n) none) s = .next (answered .badValue [] s)) ∧
      (15 < n → exec (.xmitCfg none (some n)) s = .next (answered .badValue [] s)))

/-- In TRACK a marker on the reference with a good spacing and |e| below Tstep corrects S and F, and leaves the reading
(R7, R11, R13, R16, R18). -/
def Obligations.TrackMarkerCorrects : Prop :=
  ∀ (p : PortId) (c : MarkerCell) (a : SubTick) (s : State) (e : Int), s.inReset = false →
    s.tb.role = .member → s.tb.servo = .track → s.tb.ref = some p →
    ((s.port p).link = .active ∨ (s.port p).link = .draining) → c.epoch = s.tb.epoch → c.upstream ≠ s.mgmt.frame →
    (∀ last, s.tb.spacing = some last →
      (((wholeTicks a - last).toNat : Int) - s.tb.epoch).natAbs ≤ s.tb.params.spacingTol ∨
        (((wholeTicks a - last).toNat : Int) - 2 * s.tb.epoch).natAbs ≤ s.tb.params.spacingTol) →
    e = max (-8388607) (min 8388607 (c.stamp + BitVec.ofNat 64 (s.port p).delay - a).toInt) →
    e.natAbs < s.tb.params.tstep →
    ∃ t, exec (.markerReceived ⟨p, true⟩ c a) s = .next t ∧
      t.tb = { s.tb with
        lastE := e, excursions := 0, spacing := some (wholeTicks a), silence := some (3 * s.tb.epoch)
        slew := max (-(s.tb.params.smax : Int)) (min s.tb.params.smax (roundShift e s.tb.params.p))
        freq := max (-(s.tb.params.fmax : Int)) (min s.tb.params.fmax (s.tb.freq + roundShift e s.tb.params.i)) } ∧
      t.win.lastEval = some { e := e, servo := .track, stepped := false } ∧ t.win.prevE = e ∧
      t.win.prevValid = true ∧ t = { s with tb := t.tb, win := t.win, ports := t.ports, mgmt := t.mgmt } ∧
      ∀ q, q ≠ p → t.port q = s.port q

/-- In ACQUIRE a marker on the reference with a good spacing steps the timebase by e when |e| is at or above Tstep; the
step closes the open blocks, makes no boundary and leaves G, F and the remainder (R12, R27, R28, R36, R139). -/
def Obligations.AcquireMarkerSteps : Prop :=
  ∀ (p : PortId) (c : MarkerCell) (a : SubTick) (s : State) (e : Int), s.inReset = false →
    s.tb.role = .member → s.tb.servo = .acquire → s.tb.ref = some p →
    ((s.port p).link = .active ∨ (s.port p).link = .draining) → c.epoch = s.tb.epoch → c.upstream ≠ s.mgmt.frame →
    (∀ last, s.tb.spacing = some last →
      (((wholeTicks a - last).toNat : Int) - s.tb.epoch).natAbs ≤ s.tb.params.spacingTol ∨
        (((wholeTicks a - last).toNat : Int) - 2 * s.tb.epoch).natAbs ≤ s.tb.params.spacingTol) →
    e = max (-8388607) (min 8388607 (c.stamp + BitVec.ofNat 64 (s.port p).delay - a).toInt) →
    s.tb.params.tstep ≤ e.natAbs →
    ∃ t, exec (.markerReceived ⟨p, true⟩ c a) s = .next t ∧
      t.tb.reading = s.tb.reading + BitVec.ofInt 64 e ∧ t.tb.servo = .acquire ∧ t.tb.slew = 0 ∧
      t.tb.freq = s.tb.freq ∧ t.tb.gain = s.tb.gain ∧ t.tb.remainder = s.tb.remainder ∧ t.tb.epoch = s.tb.epoch ∧
      t.tb.stepCount = s.tb.stepCount + 1 ∧ t.tb.lastE = e ∧ t.tb.dueBoundary = s.tb.dueBoundary ∧
      t.win.prevValid = false ∧
      ∀ en, isOrigin (s.entry en) = true → ((s.entry en).state = .running ∨ (s.entry en).state = .stalled) →
        (t.entry en).discOwed = true ∧ hasOpen (t.entry en) = false

/-- In ACQUIRE a marker with |e| below Tstep enters TRACK and makes the first correction. In TRACK a first excursion is counted
and changes nothing of the servo; a second one in a row returns to ACQUIRE and steps by its own e. Each holds with a good
spacing and with no spacing record to judge by (R7, R12, R13, R16). -/
def Obligations.MarkersMoveServo : Prop :=
  (∀ (p : PortId) (c : MarkerCell) (a : SubTick) (s : State) (e : Int), s.inReset = false →
      s.tb.role = .member → s.tb.servo = .acquire → s.tb.ref = some p →
      ((s.port p).link = .active ∨ (s.port p).link = .draining) →
      c.epoch = s.tb.epoch → c.upstream ≠ s.mgmt.frame →
      (∀ last, s.tb.spacing = some last →
        (((wholeTicks a - last).toNat : Int) - s.tb.epoch).natAbs ≤ s.tb.params.spacingTol ∨
          (((wholeTicks a - last).toNat : Int) - 2 * s.tb.epoch).natAbs ≤ s.tb.params.spacingTol) →
      e = max (-8388607) (min 8388607 (c.stamp + BitVec.ofNat 64 (s.port p).delay - a).toInt) →
      e.natAbs < s.tb.params.tstep →
      ∃ t, exec (.markerReceived ⟨p, true⟩ c a) s = .next t ∧ t.tb.servo = .track ∧ t.tb.excursions = 0 ∧
        t.tb.slew = max (-(s.tb.params.smax : Int)) (min s.tb.params.smax (roundShift e s.tb.params.p)) ∧
        t.tb.freq = max (-(s.tb.params.fmax : Int)) (min s.tb.params.fmax (s.tb.freq + roundShift e s.tb.params.i)) ∧
        t.tb.reading = s.tb.reading ∧ t.entries = s.entries ∧ t.trg = s.trg) ∧
  (∀ (p : PortId) (c : MarkerCell) (a : SubTick) (s : State) (e : Int), s.inReset = false →
      s.tb.role = .member → s.tb.servo = .track → s.tb.ref = some p →
      ((s.port p).link = .active ∨ (s.port p).link = .draining) →
      c.epoch = s.tb.epoch → c.upstream ≠ s.mgmt.frame →
      (∀ last, s.tb.spacing = some last →
        (((wholeTicks a - last).toNat : Int) - s.tb.epoch).natAbs ≤ s.tb.params.spacingTol ∨
          (((wholeTicks a - last).toNat : Int) - 2 * s.tb.epoch).natAbs ≤ s.tb.params.spacingTol) →
      e = max (-8388607) (min 8388607 (c.stamp + BitVec.ofNat 64 (s.port p).delay - a).toInt) →
      s.tb.params.tstep ≤ e.natAbs →
      ∃ t, exec (.markerReceived ⟨p, true⟩ c a) s = .next t ∧ t.tb.freq = s.tb.freq ∧
        (s.tb.excursions = 0 → t.tb.servo = .track ∧ t.tb.excursions = 1 ∧ t.tb.slew = s.tb.slew ∧
          t.tb.reading = s.tb.reading) ∧
        (s.tb.excursions ≠ 0 → t.tb.servo = .acquire ∧ t.tb.excursions = 0 ∧ t.tb.slew = 0 ∧
          t.tb.reading = s.tb.reading + BitVec.ofInt 64 e))

/-- A marker fault, by a bad spacing or by silence: HOLDOVER with the reference kept, F held and S at 0; the servo does not use
the marker. In HOLDOVER each marker on the reference is judged for spacing: a good one counts, a bad one sets the count to 0,
and with auto-recover the fourth good one in a row returns to ACQUIRE and is used there. A boundary raises the holdover count,
and at the limit sets the flag once, with its notice, and turns the AUTO qualifiers off. That this notice is the first of the
boundary, before those of the qualifiers and of reference selection, is the model's choice (R11, R12, R16 to R21, R36, R44; log
11, log 12). -/
def Obligations.MarkerFaultsHoldOver : Prop :=
  (∀ (p : PortId) (s : State), s.inReset = false →
    s.tb.role = .member → (s.tb.servo = .acquire ∨ s.tb.servo = .track) → s.tb.ref = some p →
    (∃ t, exec .silenceTimeout s = .next t ∧
      t.tb = { s.tb with
        servo := .holdover, slew := 0, excursions := 0, goodSpacings := 0, holdoverCount := 0
        holdoverLimitHit := false, silence := none, spacing := none } ∧
      t.win.prevValid = false ∧ t = { s with tb := t.tb, win := t.win, mgmt := t.mgmt }) ∧
    ∀ (c : MarkerCell) (a : SubTick) (last : Tick),
      (s.port p).link = .active → c.epoch = s.tb.epoch → c.upstream ≠ s.mgmt.frame → s.tb.spacing = some last →
      s.tb.params.spacingTol < (((wholeTicks a - last).toNat : Int) - s.tb.epoch).natAbs →
      s.tb.params.spacingTol < (((wholeTicks a - last).toNat : Int) - 2 * s.tb.epoch).natAbs →
      ∃ t, exec (.markerReceived ⟨p, true⟩ c a) s = .next t ∧
        t.tb = { s.tb with
          servo := .holdover, slew := 0, excursions := 0, goodSpacings := 0, holdoverCount := 0
          holdoverLimitHit := false, silence := none, spacing := some (wholeTicks a) } ∧
        t.win.prevValid = false) ∧
  (∀ (p : PortId) (c : MarkerCell) (a : SubTick) (s : State) (e : Int), s.inReset = false →
    s.tb.role = .member → s.tb.servo = .holdover → s.tb.ref = some p →
    ((s.port p).link = .active ∨ (s.port p).link = .draining) → c.epoch = s.tb.epoch → c.upstream ≠ s.mgmt.frame →
    e = max (-8388607) (min 8388607 (c.stamp + BitVec.ofNat 64 (s.port p).delay - a).toInt) →
    let good := ∃ last, s.tb.spacing = some last ∧
      ((((wholeTicks a - last).toNat : Int) - s.tb.epoch).natAbs ≤ s.tb.params.spacingTol ∨
        (((wholeTicks a - last).toNat : Int) - 2 * s.tb.epoch).natAbs ≤ s.tb.params.spacingTol)
    let n := if s.tb.goodSpacings < 255 then s.tb.goodSpacings + 1 else s.tb.goodSpacings
    let counts := fun g : Nat => ∃ t, exec (.markerReceived ⟨p, true⟩ c a) s = .next t ∧
      t = { s with tb := t.tb, ports := t.ports } ∧ (∀ q, q ≠ p → t.port q = s.port q) ∧
      t.tb = { s.tb with lastE := e, spacing := some (wholeTicks a), goodSpacings := g }
    (s.tb.spacing = none → counts s.tb.goodSpacings) ∧
    (s.tb.spacing ≠ none → ¬good → counts 0) ∧
    (good → (s.tb.params.autoRecover = false ∨ n < 4) → counts n) ∧
    (good → s.tb.params.autoRecover = true → 4 ≤ n → ∃ t, exec (.markerReceived ⟨p, true⟩ c a) s = .next t ∧
      t.tb.goodSpacings = 0 ∧ t.tb.excursions = 0 ∧ t.tb.lastE = e ∧
      (e.natAbs < s.tb.params.tstep → t.tb.servo = .track ∧ t.tb.reading = s.tb.reading ∧
        t.tb.slew = max (-(s.tb.params.smax : Int)) (min s.tb.params.smax (roundShift e s.tb.params.p))) ∧
      (s.tb.params.tstep ≤ e.natAbs → t.tb.servo = .acquire ∧ t.tb.slew = 0 ∧
        t.tb.reading = s.tb.reading + BitVec.ofInt 64 e))) ∧
  ∀ s : State, s.inReset = false → s.tb.role = .member → s.tb.servo = .holdover →
    let n := if s.tb.holdoverCount < 65535 then s.tb.holdoverCount + 1 else s.tb.holdoverCount
    let hits := s.tb.params.holdoverLimit ≠ 0 ∧ s.tb.params.holdoverLimit ≤ n ∧ s.tb.holdoverLimitHit = false
    ∃ t, exec .epochBoundary s = .next t ∧ t.tb.holdoverCount = n ∧
      (¬hits → t.tb.holdoverLimitHit = s.tb.holdoverLimitHit) ∧
      (hits → t.tb.holdoverLimitHit = true ∧ (s.win.stamp.mode = .auto → t.win.stamp.on = false) ∧
        (s.win.grade.mode = .auto → t.win.grade.on = false) ∧
        (s.tb.epochStaged = none → canStore .holdoverLimit s → ∃ rest, t.mgmt.notices =
          s.mgmt.notices ++ noticeNow .holdoverLimit 0xFFFF n 0 s :: rest))

/-- A marker that is not for the servo: discarded on a port out of service; refused for another E; on a port that is not the
reference it only updates that port's record; and one on the reference that names this hub as its sender's upstream drops the
reference. At a boundary every ACTIVE port is offered one MARKER, which takes the place of one waiting, joins the queue, or is
refused by a full one, and every valid record ages. That REF_CHANGED comes before every other notice of the dropped reference
is the model's choice, and so is that the marker-replaced and timing-refused counts wrap to 0 (R5, R7, R8, R20, R105; log 12,
66). -/
def Obligations.MarkerRecords : Prop :=
  (∀ (p : PortId) (c : MarkerCell) (a : SubTick) (s : State), s.inReset = false →
    ((s.port p).link ≠ .active → (s.port p).link ≠ .draining → exec (.markerReceived ⟨p, true⟩ c a) s = .next s) ∧
    (((s.port p).link = .active ∨ (s.port p).link = .draining) → c.epoch ≠ s.tb.epoch →
      ∃ t, exec (.markerReceived ⟨p, true⟩ c a) s = .next t ∧
      t.port p = { s.port p with mismatch := true } ∧ (∀ q, q ≠ p → t.port q = s.port q) ∧
      t = { s with ports := t.ports, mgmt := { s.mgmt with
        notices := t.mgmt.notices, lostFlag := t.mgmt.lostFlag, lostCount := t.mgmt.lostCount } } ∧
      ((s.port p).mismatch = true → t.mgmt = s.mgmt) ∧
      ((s.port p).mismatch = false → canStore .epochMismatch s →
        t.mgmt.notices = s.mgmt.notices ++ [noticeNow .epochMismatch p.val c.epoch 0 s])) ∧
    (((s.port p).link = .active ∨ (s.port p).link = .draining) → c.epoch = s.tb.epoch → s.tb.ref ≠ some p →
      ∃ t, exec (.markerReceived ⟨p, true⟩ c a) s = .next t ∧ t = { s with ports := t.ports } ∧
        (∀ q, q ≠ p → t.port q = s.port q) ∧
        t.port p = { s.port p with
          mismatch := false
          marker := some
            { sender := c.sender, epoch := c.epoch, hop := c.hop, grade := c.grade, aligned := c.aligned,
              upstream := c.upstream, age := 0 } })) ∧
  (∀ (p : PortId) (c : MarkerCell) (a : SubTick) (s : State), s.inReset = false →
    s.tb.role = .member → s.tb.ref = some p → ((s.port p).link = .active ∨ (s.port p).link = .draining) →
    c.epoch = s.tb.epoch → c.upstream = s.mgmt.frame →
    let uses := s.tb.servo = .acquire ∨ s.tb.servo = .track
    ∃ t, exec (.markerReceived ⟨p, true⟩ c a) s = .next t ∧
      t.tb = { s.tb with
        ref := none, spacing := none, goodSpacings := 0, excursions := 0
        servo := if uses then .holdover else s.tb.servo, slew := if uses then 0 else s.tb.slew
        holdoverCount := if uses then 0 else s.tb.holdoverCount
        holdoverLimitHit := if uses then false else s.tb.holdoverLimitHit
        silence := if uses then none else s.tb.silence } ∧
      t.win.prevValid = false ∧ t = { s with tb := t.tb, win := t.win, ports := t.ports, mgmt := t.mgmt } ∧
      (∀ q, q ≠ p → t.port q = s.port q) ∧
      t.port p = { s.port p with
        mismatch := false
        marker := some
          { sender := c.sender, epoch := c.epoch, hop := c.hop, grade := c.grade, aligned := c.aligned,
            upstream := c.upstream, age := 0 } } ∧
      (canStore .refChanged s → ∃ rest,
        t.mgmt.notices = s.mgmt.notices ++ noticeNow .refChanged 0xFFFF p.val 0 s :: rest)) ∧
  ∀ s : State, s.inReset = false → ∃ t, exec .epochBoundary s = .next t ∧ ∀ p : PortId,
    let q := s.port p
    (t.port p).mismatch = q.mismatch ∧
    (t.port p).marker = q.marker.map (fun m => { m with age := if m.age < 255 then m.age + 1 else m.age }) ∧
    (q.link = .active → .marker ∈ q.timingQ → (t.port p).timingQ = q.timingQ ∧
      (t.port p).markerReplaced = q.markerReplaced + 1 ∧ (t.port p).timingRefused = q.timingRefused) ∧
    (q.link = .active → .marker ∉ q.timingQ → q.timingQ.length < 4 → (t.port p).timingQ = q.timingQ ++ [.marker] ∧
      (t.port p).markerReplaced = q.markerReplaced ∧ (t.port p).timingRefused = q.timingRefused) ∧
    (q.link = .active → .marker ∉ q.timingQ → 4 ≤ q.timingQ.length → (t.port p).timingQ = q.timingQ ∧
      (t.port p).markerReplaced = q.markerReplaced ∧ (t.port p).timingRefused = q.timingRefused + 1) ∧
    (q.link ≠ .active → q.link ≠ .training → (t.port p).timingQ = q.timingQ)

/-- Reference selection at an epoch boundary, over the marker records as aged there: MANUAL takes the chosen port when it is
eligible and none otherwise; AUTO keeps an eligible reference unless an eligible port has a strictly smaller hop count,
and otherwise takes the best eligible port, by hop count, peer frame and port number, or none; the root keeps its own
(R22, R23, R24). -/
def Obligations.SelectionTakesBestPort : Prop :=
  ∀ s : State, s.inReset = false → ∃ t, exec .epochBoundary s = .next t ∧
    let ok := fun p : PortId => (s.port p).link = .active ∧ (s.port p).mismatch = false ∧
      ∃ m, (s.port p).marker = some m ∧ m.age + 1 ≤ 2 ∧ m.grade = true ∧ m.hop ≤ 30 ∧ m.upstream ≠ s.mgmt.frame
    let hop := fun p : PortId => ((s.port p).marker.map (·.hop)).getD 31
    let better := fun a b : PortId => hop a < hop b ∨ (hop a = hop b ∧
      ((s.port a).peer < (s.port b).peer ∨ ((s.port a).peer = (s.port b).peer ∧ a ≤ b)))
    (s.tb.role = .root → t.tb.ref = s.tb.ref) ∧
    (s.tb.role = .member → s.tb.refMode = .manual →
      (∀ p, s.tb.chosen = some p → (ok p → t.tb.ref = some p) ∧ (¬ok p → t.tb.ref = none)) ∧
      (s.tb.chosen = none → t.tb.ref = none)) ∧
    (s.tb.role = .member → s.tb.refMode = .auto →
      ((∀ p, ¬ok p) → t.tb.ref = none) ∧
      (∀ r, s.tb.ref = some r → ok r → (∀ b, ok b → hop r ≤ hop b) → t.tb.ref = some r) ∧
      ∀ b, ok b → (∀ a, ok a → better b a) → (∀ r, s.tb.ref = some r → ok r → hop b < hop r) → t.tb.ref = some b)

/-! ### Phase windows and qualifiers (chapter 2) -/

/-- A qualifier's region is the union of its coupled usable windows, as intervals in ascending order that neither overlap
nor touch (R41). -/
def Obligations.RegionIsUnionOfWindows : Prop :=
  ∀ (u : WindowUnit) (coupled : Set4),
    (∀ e : Int, inRegion (region u coupled) e = true ↔
      ∃ w : WinId, coupled.getLsbD w.val = true ∧ u.wins[w].inForce.inUse = true ∧
        u.wins[w].inForce.lower ≤ e ∧ e ≤ u.wins[w].inForce.upper) ∧
    (region u coupled).Pairwise (fun a b => a.2 + 1 < b.1) ∧ ∀ iv ∈ region u coupled, iv.1 ≤ iv.2

/-- One evaluation: the pending settings come into force, the inside flag of each window in use follows e, a window that
cannot be judged is cleared, and the previous error is kept for the next one. A window whose notice band holds e is left alone;
otherwise a change of its reported state takes a band at the limit R38 chooses and offers the notice its option allows, the
windows in ascending order. A record that shows TRACK judges both AUTO qualifiers: held by the band, switched with a band, or
refused by R43; any other record leaves them. That the order is W0 to W3 is the model's choice (R35, R38, R39, R42, R43; log
12). -/
def Obligations.EvaluationMarksWindows : Prop :=
  ∀ (e : Int) (servo : ServoState) (stepped : Bool) (s : State),
    (∀ w : WinId,
      let v : WinSetting := s.win.wins[w].staged.getD s.win.wins[w].inForce
      ((evaluate e servo stepped s).win.wins[w]).inForce = v ∧
      ((evaluate e servo stepped s).win.wins[w]).staged = none ∧
      (v.inUse = true →
        ((evaluate e servo stepped s).win.wins[w]).inside = (decide (v.lower ≤ e) && decide (e ≤ v.upper))) ∧
      ((v.inUse = false ∨ v.upper < v.lower) →
        ((evaluate e servo stepped s).win.wins[w]).inside = false ∧
        ((evaluate e servo stepped s).win.wins[w]).reported = false ∧
        ((evaluate e servo stepped s).win.wins[w]).band = none)) ∧
    (evaluate e servo stepped s).win.prevE = e ∧ (evaluate e servo stepped s).win.prevValid = !stepped ∧
    (evaluate e servo stepped s).win.lastEval = some { e := e, servo := servo, stepped := stepped } ∧
    (servo ≠ .track → (evaluate e servo stepped s).win.stamp = s.win.stamp ∧
      (evaluate e servo stepped s).win.grade = s.win.grade) ∧
    let t := evaluate e servo stepped s
    let pe := s.win.prevE
    let pv := s.win.prevValid
    let holds := fun band : Option Int => ∃ l, band = some l ∧ (e - l).natAbs ≤ s.win.hyst
    let usable := fun w : WinId => t.win.wins[w].inForce.inUse = true ∧ t.win.wins[w].inForce.lower ≤ t.win.wins[w].inForce.upper
    let moves := fun w : WinId => usable w ∧ ¬holds s.win.wins[w].band ∧ t.win.wins[w].inside ≠ s.win.wins[w].reported
    (∀ w : WinId, usable w →
      (holds s.win.wins[w].band →
        t.win.wins[w].band = s.win.wins[w].band ∧ t.win.wins[w].reported = s.win.wins[w].reported) ∧
      (¬holds s.win.wins[w].band → t.win.wins[w].reported = t.win.wins[w].inside ∧
        (¬moves w → t.win.wins[w].band = none) ∧
        (moves w →
          let lo := t.win.wins[w].inForce.lower
          let hi := t.win.wins[w].inForce.upper
          let cl := ¬(pe < lo ↔ e < lo)
          let ch := ¬(hi < pe ↔ hi < e)
          (pv = true → cl → ¬ch → t.win.wins[w].band = some lo) ∧ (pv = true → ch → ¬cl → t.win.wins[w].band = some hi) ∧
          ((pv = false ∨ (cl ↔ ch)) →
            t.win.wins[w].band = some (if (hi - e).natAbs < (lo - e).natAbs then hi else lo))))) ∧
    (s.mgmt.notices.length ≤ 28 → s.mgmt.masked.getLsbD 15 = false → s.mgmt.masked.getLsbD 16 = false →
      ∃ told : WinId → List Notice, ∃ rest,
        t.mgmt.notices = s.mgmt.notices ++ told 0 ++ told 1 ++ told 2 ++ told 3 ++ rest ∧ (servo ≠ .track → rest = []) ∧
        ∀ w : WinId, let v : Window := t.win.wins[w]
          (¬moves w → told w = []) ∧
          (moves w → v.inside = true → told w =
            if pv = true ∧ v.inForce.notice ≠ .none then [noticeNow .windowEntry w.val e 0 s] else []) ∧
          (moves w → v.inside = false → told w =
            if v.inForce.notice = .all then [noticeNow .windowExit w.val e 0 s] else [])) ∧
    (servo = .track →
      let judged := fun q q' : Qualifier =>
        let ivs := region t.win q.coupled
        let inside := inRegion ivs e = true
        let may := if inRegion ivs e = true then q.entryOnly = false ∨ (pv = true ∧ inRegion ivs pe = false) else q.clearOnExit = true
        let crossed := fun l : Int => ∃ iv ∈ ivs, (l = iv.1 ∧ ¬(pe < l ↔ e < l)) ∨ (l = iv.2 ∧ ¬(l < pe ↔ l < e))
        let pool := fun l : Int => (∃ iv ∈ ivs, l = iv.1 ∨ l = iv.2) ∧ ((pv = true ∧ ∃ m, crossed m) → crossed l)
        ((q.mode ≠ .auto ∨ holds q.band) → q' = q) ∧
        (q.mode = .auto → ¬holds q.band →
          ((inside ↔ q.on = true) → q' = { q with band := none }) ∧
          (¬(inside ↔ q.on = true) → ¬may → q' = { q with band := none }) ∧
          (¬(inside ↔ q.on = true) → may → q' = { q with on := !q.on, band := q'.band } ∧
            (ivs = [] → q'.band = none) ∧
            (ivs ≠ [] → ∃ l, q'.band = some l ∧ pool l ∧ ∀ m, pool m →
              (l - e).natAbs < (m - e).natAbs ∨ ((l - e).natAbs = (m - e).natAbs ∧ l ≤ m))))
      judged s.win.stamp t.win.stamp ∧ judged s.win.grade t.win.grade)

/-- `win.cfg`: the fields it carries over the pending setting, or the one in force; staged on a member, in force at once
on the root; previous-error-valid, every notice band and the coupled qualifiers' bands are cleared, and no qualifier
switches (R36, R50). -/
def Obligations.WinCfgSetsWindow : Prop :=
  ∀ (w : WinId) (lo hi : Int) (s : State), s.inReset = false → lo.natAbs ≤ 8388607 → hi.natAbs ≤ 8388607 →
    let v : WinSetting :=
      { s.win.wins[w].staged.getD s.win.wins[w].inForce with lower := lo, upper := hi, inUse := true }
    ∃ t, exec (.winCfg { window := w.val, lower := some lo, upper := some hi, inUse := some 1 }) s = .next t ∧
      (s.tb.role = .member → t.win.wins[w].staged = some v ∧ t.win.wins[w].inForce = s.win.wins[w].inForce ∧
        t.mgmt = (answered .staged [] s).mgmt) ∧
      (s.tb.role = .root → t.win.wins[w].inForce = v ∧ t.mgmt = (answered .ok [] s).mgmt) ∧
      t.win.prevValid = false ∧ t.win.prevE = s.win.prevE ∧ (∀ x : WinId, t.win.wins[x].band = none) ∧
      (∀ x, x ≠ w → t.win.wins[x] = { s.win.wins[x] with band := none }) ∧
      t.win.stamp = (if s.win.stamp.coupled.getLsbD w.val then { s.win.stamp with band := none } else s.win.stamp) ∧
      t.win.grade = (if s.win.grade.coupled.getLsbD w.val then { s.win.grade with band := none } else s.win.grade) ∧
      t = { s with win := t.win, mgmt := t.mgmt }

/-- `qual.cfg`, for either qualifier and any of its fields: a coupled set outside W0 to W3 is refused; otherwise the fields are
set at once, a changed coupled set releases the band, drop-on-fault turned on in HOLDOVER turns an AUTO qualifier off, and
origin-required changed on the root applies the root rule. `qual.mode`: a forced mode sets the state and releases the band; AUTO
from a forced mode keeps the state in TRACK, and in HOLDOVER with drop-on-fault off and no holdover limit, takes the root rule on
the root, and is off elsewhere. QUAL_CHANGE is raised when the state changes, and not otherwise. That an option byte other than
0 and 1 is out of range, and that a `qual.cfg` keeps the band unless the coupled set changes, also where drop-on-fault or the root
rule switches the qualifier, is the model's choice (R45, R46, R47, R52; log 14, 40). -/
def Obligations.QualifierRequests : Prop :=
  ∀ (n : QualName) (s : State), s.inReset = false →
    let q := s.win.qual n
    let becomes := fun (c : Instr) (cause : Nat) (v : Qualifier) => ∃ t, exec c s = .next t ∧
      t = { s with
        win := match n with
          | .stamp => { s.win with stamp := v }
          | .grade => { s.win with grade := v }
        mgmt := t.mgmt } ∧
      t.mgmt.answer = some { status := .ok, body := [] } ∧
      (v.on = q.on → t.mgmt.notices = s.mgmt.notices) ∧
      (v.on ≠ q.on → canStore .qualChange s → t.mgmt.notices = s.mgmt.notices ++
        [noticeNow .qualChange n.code ((if v.on then 1 else 0) + 256 * cause) 0 s])
    (∀ r : QualCfgReq, r.qualifier = n.code →
      let flags := [r.clearOnExit, r.entryOnly, r.dropOnFault, r.originRequired]
      let bad := (∃ w, r.coupled = some w ∧ 15 < w) ∨ ∃ v, some v ∈ flags ∧ 1 < v
      let byte := fun (o : Option Nat) (old : Bool) => (o.map (· == 1)).getD old
      let set : Set4 := (r.coupled.map (BitVec.ofNat 4)).getD q.coupled
      let drop := byte r.dropOnFault q.dropOnFault
      let needs := byte r.originRequired q.originRequired
      (bad → exec (.qualCfg r) s = .next (answered .badValue [] s)) ∧
      (¬bad → becomes (.qualCfg r) 6 { q with
        coupled := set, clearOnExit := byte r.clearOnExit q.clearOnExit, entryOnly := byte r.entryOnly q.entryOnly
        dropOnFault := drop, originRequired := needs, band := if q.coupled = set then q.band else none
        on :=
          if s.tb.role = .member ∧ s.tb.servo = .holdover ∧ q.mode = .auto ∧ q.dropOnFault = false ∧ drop = true then false
          else if s.tb.role = .root ∧ q.mode = .auto ∧ q.originRequired ≠ needs then !(needs && !s.org.aligned)
          else q.on })) ∧
    (∀ r : QualCfgReq, 2 ≤ r.qualifier → exec (.qualCfg r) s = .next (answered .badValue [] s)) ∧
    (∀ a b : Nat, (2 ≤ a ∨ 3 ≤ b) → exec (.qualMode a b) s = .next (answered .badValue [] s)) ∧
    becomes (.qualMode n.code 1) 5 { q with mode := .forceOn, on := true, band := none } ∧
    becomes (.qualMode n.code 2) 5 { q with mode := .forceOff, on := false, band := none } ∧
    (q.mode = .auto → exec (.qualMode n.code 0) s = .next (answered .ok [] s)) ∧
    (q.mode ≠ .auto → becomes (.qualMode n.code 0) 5 { q with
      mode := .auto, band := none
      on := match s.tb.role with
        | .root => !(q.originRequired && !s.org.aligned)
        | .member => q.on && (s.tb.servo == .track ||
            (s.tb.servo == .holdover && !q.dropOnFault && !s.win.limitFlag)) })

/-! ### The rack origin (chapter 3) -/

/-- `org.arm` and `org.disarm` by origin state: what they answer and where they leave the unit; a member refuses both. The edges
of START on the root: ARMED to SYNCING on a rise, the end of the approach window on a fall; on a member only the sensed
level follows. A boundary in SETTLING counts the settle counter down and at 0 enters ALIGNED with the flag set; in any other
state it changes nothing of the unit. Settling takes as many boundaries as the counter says, less those that `tb.offset` has
skipped and more by those passed again, and one at least. How the boundary after a step counts them, the counter being kept at
the step, is the model's choice (R57, R58, R60, R61, R63, R64; log 51). -/
def Obligations.OriginApproach : Prop :=
  (∀ s : State, s.inReset = false →
      (s.tb.role = .member → exec .orgArm s = .next (answered .notRoot [] s) ∧
        exec .orgDisarm s = .next (answered .notRoot [] s)) ∧
      (s.tb.role = .root →
        ((s.org.state = .idle ∨ s.org.state = .aligned) → ∃ t, exec .orgArm s = .next t ∧
          t.org = { s.org with state := .armed, aligned := false } ∧ t = { s with org := t.org, win := t.win, mgmt := t.mgmt } ∧
          t.mgmt.answer = some { status := .ok, body := [] }) ∧
        ((s.org.state = .armed ∨ s.org.state = .syncing ∨ s.org.state = .settling) →
          exec .orgArm s = .next (answered .state [] s)) ∧
        ∃ t, exec .orgDisarm s = .next t ∧ t = { s with org := t.org, win := t.win, mgmt := t.mgmt } ∧
          t.org = (match s.org.state with
            | .idle => s.org
            | .armed => { s.org with state := .idle }
            | .syncing => { s.org with disarmPending := true }
            | .settling => s.org
            | .aligned => { s.org with state := .idle, aligned := false }) ∧
          t.mgmt.answer = some { status := .ok, body := [BitVec.ofNat 8 t.org.state.code] })) ∧
  (∀ s : State, s.inReset = false → ∃ t, exec .epochBoundary s = .next t ∧
      let left := if s.org.settleShift < 0 then s.org.settleCtr else s.org.settleCtr - (1 + s.org.settleShift.toNat)
      let o := { s.org with
        settleCtr := left, settleShift := if s.org.settleShift < 0 then s.org.settleShift + 1 else 0 }
      t.org = (if s.org.state ≠ .settling then s.org
        else if left = 0 then { o with state := .aligned, aligned := true } else o)) ∧
  (∀ (o : Origin) (n : Nat), 1 ≤ o.settleCtr →
      ((Nat.repeat Origin.settle n o).settleCtr = 0 ↔ max 1 ((o.settleCtr : Int) - o.settleShift) ≤ n)) ∧
  (∀ s : State, s.inReset = false →
      (∃ t, exec .startRise s = .next t ∧ t = { s with org := t.org, mgmt := t.mgmt } ∧
        t.org = (if s.tb.role = .root ∧ s.org.state = .armed then
            { s.org with startLevel := true, state := .syncing, pulseSeen := false, disarmPending := false }
          else { s.org with startLevel := true })) ∧
      ∃ t, exec .startFall s = .next t ∧ t = { s with org := t.org, mgmt := t.mgmt } ∧
        t.org = (if s.tb.role = .root ∧ s.org.state = .syncing then
            { s.org with
              startLevel := false, pulseSeen := false, disarmPending := false
              state := if s.org.pulseSeen then .settling else if s.org.disarmPending then .idle else .armed
              settleCtr := if s.org.pulseSeen then s.org.settleLen else s.org.settleCtr
              settleShift := if s.org.pulseSeen then 0 else s.org.settleShift }
          else { s.org with startLevel := false }))

/-- A REF PULSE edge on the root: recorded and counted in every state; in SYNCING it sets the reading to O; in IDLE and
ARMED nothing more; a member ignores it. The deviation of a pulse is congruent to its arrival minus O modulo P, and lies
within half a period; a judged pulse goes on when it is within the tolerance, and otherwise ends in IDLE with the aligned
flag clear (R57, R59, R62). -/
def Obligations.RefPulsesSetAndMonitor : Prop :=
  (∀ s : State, s.inReset = false →
    (s.tb.role = .member → exec .refPulseEdge s = .next s) ∧
    (s.tb.role = .root → ∃ t, exec .refPulseEdge s = .next t ∧
      t.org.lastArrival = some s.tb.reading ∧ t.org.pulseCount = s.org.pulseCount + 1 ∧ t.org.value = s.org.value ∧
      ((s.org.state = .idle ∨ s.org.state = .armed) → t = { s with org := t.org } ∧ t.org.deviation = s.org.deviation) ∧
      (s.org.state = .syncing →
        t.tb.reading = BitVec.ofNat 64 (s.org.value.toNat * 256) ∧ t.tb.stepCount = s.tb.stepCount + 1 ∧
        t.tb.dueBoundary = s.tb.dueBoundary ∧ t.org.state = .syncing ∧ t.org.pulseSeen = true ∧
        t.org.deviation = none ∧ t.win.prevValid = false) ∧
      ((s.org.state = .settling ∨ s.org.state = .aligned) → t.tb = s.tb))) ∧
  ((∀ (a o : Tick) (p : Nat), 0 < p →
    (∃ n : Int, (a - o).toInt = pulseDeviation a o p + n * p) ∧ 2 * pulseDeviation a o p ≤ p ∧
      -(p : Int) < 2 * pulseDeviation a o p) ∧
  ∀ s : State, s.inReset = false → s.tb.role = .root → (s.org.state = .settling ∨ s.org.state = .aligned) →
    let d := pulseDeviation (wholeTicks s.tb.reading) s.org.value s.org.period
    ∃ t, exec .refPulseEdge s = .next t ∧ t.org.deviation = some d ∧
      (d.natAbs ≤ s.org.tolerance → t.org.state = s.org.state ∧ t.org.aligned = s.org.aligned ∧ t.mgmt = s.mgmt) ∧
      (s.org.tolerance < d.natAbs → t.org.state = .idle ∧ t.org.aligned = false))

/-- `tb.offset` on the root moves the reading and O together, as one step that makes no boundary and keeps the settle counter; in
SETTLING the multiples of E among the ticks that a step forward moves to are noted as skipped, and among those a step backward
leaves as to be passed again. Out of range and on a member it is refused, a member answering NOT_ROOT whatever the offset (log
51 and 52, the model's choice). `org.cfg` on the root in IDLE or ARMED takes O, P, the
tolerance and the settle length in range; away from there it is refused with STATE; twice the tolerance at or above P, or an
empty body, is refused with BAD_VALUE; on a member with NOT_ROOT, before either (R27, R55, R65, R68, R197). -/
def Obligations.OriginRequests : Prop :=
  (∀ (n : Int) (s : State), s.inReset = false →
    (s.tb.role = .member → exec (.tbOffset n) s = .next (answered .notRoot [] s)) ∧
    (s.tb.role = .root → 2 ^ 47 < n.natAbs → exec (.tbOffset n) s = .next (answered .badValue [] s)) ∧
    (s.tb.role = .root → n.natAbs ≤ 2 ^ 47 → ∃ t, exec (.tbOffset n) s = .next t ∧
      t.tb.reading = s.tb.reading + BitVec.ofInt 64 (n * 256) ∧ t.tb.stepCount = s.tb.stepCount + 1 ∧
      t.tb.gain = s.tb.gain ∧ t.tb.dueBoundary = s.tb.dueBoundary ∧ t.tb.spacing = s.tb.spacing ∧
      t.org = { s.org with value := s.org.value + BitVec.ofInt 56 n, settleShift := t.org.settleShift } ∧
      (s.org.state ≠ .settling → t.org.settleShift = s.org.settleShift) ∧
      (s.org.state = .settling → 0 < s.tb.epoch →
        let multiples := fun (v : Tick) (m : Nat) =>
          (List.range m).countP fun i => decide ((v + BitVec.ofNat 56 (i + 1)).toNat % s.tb.epoch = 0)
        let v := wholeTicks s.tb.reading
        t.org.settleShift = s.org.settleShift +
          (if 0 ≤ n then (multiples v n.toNat : Int) else -(multiples (v + BitVec.ofInt 56 n) n.natAbs : Int))) ∧
      t.win.prevValid = false ∧ t.mgmt.answer = some { status := .ok, body := [] } ∧ t.ports.map (·.link) = s.ports.map (·.link))) ∧
  ∀ (o p tol len : Nat) (s : State), s.inReset = false →
    o < 2 ^ 56 → 4096 ≤ p → p < 2 ^ 32 → 1 ≤ tol → tol ≤ 65535 → 1 ≤ len → len ≤ 255 →
    let r : OrgCfgReq := { value := some o, period := some p, tolerance := some tol, settleLen := some len }
    (s.tb.role = .member → exec (.orgCfg r) s = .next (answered .notRoot [] s)) ∧
    (s.tb.role = .root → p ≤ 2 * tol → exec (.orgCfg r) s = .next (answered .badValue [] s)) ∧
    (s.tb.role = .root → 2 * tol < p → (s.org.state = .idle ∨ s.org.state = .armed) →
      exec (.orgCfg r) s = .next (answered .ok [] { s with org := { s.org with
        value := BitVec.ofNat 56 o, period := p, tolerance := tol, settleLen := len } })) ∧
    (s.tb.role = .root → 2 * tol < p → s.org.state ≠ .idle → s.org.state ≠ .armed →
      exec (.orgCfg r) s = .next (answered .state [] s)) ∧
    ∀ pins, ∃ c, requestOf pins 0x30 [] = .ok c ∧ (s.tb.role = .member → exec c s = .next (answered .notRoot [] s)) ∧
      (s.tb.role = .root → exec c s = .next (answered .badValue [] s))

/-! ### Link ports (chapter 4) -/

/-- The commands that a port's pins, timers, cells of every kind and requests give move the link state of no other port (R72 to
R76, R78, R81, R82, R87, R89 to R95, R99 to R102, R109, R110, R123). -/
def Obligations.PortEventsMoveOneLink : Prop :=
  ∀ (p q : PortId) (g : Bool) (m : MarkerCell) (x : ProbeCell) (y : EchoCell) (cr : CreditCell) (rackId : Nat)
    (sm : SampleCell) (tr : TriggerCell) (ca : CancelCell) (r : PortCfgReq) (a : SubTick) (s t : State) (c : Instr), q ≠ p →
    c ∈ [Instr.portPresentRise p, .portPresentFall p, .portSignalRise p, .portSignalFall p, .portDebounceExpiry p,
      .signalWaitExpiry p, .graceExpiry p, .drainTimeout p, .drainComplete p, .cellBadCrc ⟨p, g⟩, .cellUnknownKind ⟨p, g⟩,
      .markerReceived ⟨p, g⟩ m a, .probeReceived ⟨p, g⟩ x a, .echoReceived ⟨p, g⟩ y a, .creditReceived ⟨p, g⟩ cr,
      .queryReceived ⟨p, g⟩ rackId, .sampleReceived ⟨p, g⟩ sm, .triggerReceived ⟨p, g⟩ tr, .cancelReceived ⟨p, g⟩ ca,
      .quiesceReceived ⟨p, g⟩, .resumeReceived ⟨p, g⟩, .cellDeparture p, .cellCompletion p,
      .portCfg { r with port := p.val }, .portCtlEnable p.val, .portCtlDisable p.val, .portCtlDrain p.val,
      .portCtlResume p.val, .portCtlRetrain p.val, .portStat p.val, .xmitStat p.val] →
    exec c s = .next t → (t.port q).link = (s.port q).link

/-- A rise of Pn_PRESENT settles an EMPTY port; the debounce expiry raises PORT_INSERTED and enters WAITING, or TRAINING with
signal and a frame number. A fall empties the port from every state but DISABLED; from WAITING on, PORT_REMOVED comes first,
with ORDERLY from QUIESCED, SURPRISE from ACTIVE and DRAINING, IDLE otherwise. The place of PORT_REMOVED before the notices that
follow, and the count of an earlier run's probes that a training begins with, are the model's choice (R71 to R73, R75, R79; log
12, 38). -/
def Obligations.PortPresence : Prop :=
  (∀ (p : PortId) (s : State), s.inReset = false →
      (∃ t, exec (.portPresentRise p) s = .next t ∧ t = { s with ports := t.ports } ∧
        (∀ q, q ≠ p → t.port q = s.port q) ∧
        ((s.port p).link ≠ .empty → t.port p = { s.port p with present := true }) ∧
        ((s.port p).link = .empty → t.port p = { s.port p with
          present := true, link := .settling, debounce := some ((s.port p).cfg.debounce * 125000)
          signalWait := none, grace := none, drain := none })) ∧
      ((s.port p).link = .settling → canStore .portInserted s → ∃ t, exec (.portDebounceExpiry p) s = .next t ∧
        t.mgmt = { s.mgmt with notices := s.mgmt.notices ++ [noticeNow .portInserted p.val 0 0 s] } ∧
        (t.port p).debounce = none ∧
        ((s.port p).signal = false → (t.port p).link = .waiting ∧
          (t.port p).signalWait = some ((s.port p).cfg.signalWait * 125000)) ∧
        ((s.port p).signal = true → s.mgmt.frame = 0 → (t.port p).link = .waiting ∧ (t.port p).signalWait = none) ∧
        ((s.port p).signal = true → s.mgmt.frame ≠ 0 → (t.port p).link = .training ∧
          (t.port p).train = {
            attempt := 1, probeCount := 0, outstanding := none, rts := Vector.replicate 8 none
            dmin := (s.port p).cfg.dmin, dmax := (s.port p).cfg.dmax, responder := none
            earlier := probesWaiting (s.port p).timingQ }))) ∧
  (∀ (p : PortId) (s : State), s.inReset = false →
      ∃ t, exec (.portPresentFall p) s = .next t ∧ (t.port p).present = false ∧
      (t.port p).link = (if (s.port p).link = .disabled then .disabled else .empty) ∧
      (((s.port p).link = .disabled ∨ (s.port p).link = .empty ∨ (s.port p).link = .settling) → t.mgmt = s.mgmt) ∧
      ((s.port p).link ≠ .disabled → (s.port p).link ≠ .empty → (s.port p).link ≠ .settling → canStore .portRemoved s →
        ∃ rest, t.mgmt.notices = s.mgmt.notices ++
          noticeNow .portRemoved p.val
            (if (s.port p).link = .quiesced then 0
             else if (s.port p).link = .active ∨ (s.port p).link = .draining then 1 else 2)
            (s.port p).link.code s :: rest))

/-- A teardown leaves nothing of the port behind: no queued cell, no cell in flight, no block and no trigger pending for
it, no CREDIT owed there or advertised from there, no credit held for it, no marker record, and it is not the reference; D, the
peer and the score stay. It is made by a fall of presence or of signal and by a disable, and in ACTIVE by a retrain and by the bad
CRC that brings the score to the threshold, or that finds it at 255 already, where the comparison is the model's choice (R87, R88,
R96, R97, R101, R115, R119; log 31). -/
def Obligations.TeardownLeavesNothing : Prop :=
  ∀ (p : PortId) (s : State), s.inReset = false →
    let torn := fun t : State => (t.port p).link ≠ .active ∧ (t.port p).link ≠ .draining ∧
      (t.port p).timingQ = [] ∧ (t.port p).ctrlQ = [] ∧ (t.port p).flight = none ∧
      (t.port p).quiesceOwed = false ∧ (t.port p).resumeOwed = false ∧ (t.port p).resumePending = false ∧
      (t.port p).drain = none ∧ (t.port p).marker = none ∧ (t.port p).mismatch = false ∧ t.tb.ref ≠ some p ∧
      (t.port p).delay = (s.port p).delay ∧ (t.port p).peer = (s.port p).peer ∧
      (∀ en, ∀ b ∈ (t.entry en).ring, b.pendPorts.getLsbD p.val = false) ∧
      (∀ en, (t.entry en).credit[p] = { limit := none, timeouts := 0, queries := 0 }) ∧
      (∀ en, (s.entry en).source = .port p → (t.entry en).owedCredit = false ∧
        ((s.entry en).state ≠ .closed → (t.entry en).lastAdv = none)) ∧
      (∀ x ∈ t.trg.queue, x.pendPorts.getLsbD p.val = false ∧ x.owedPorts.getLsbD p.val = false) ∧
      (∀ x ∈ t.trg.history, ∀ f, x.forward = some f → f.pendPorts.getLsbD p.val = false)
    (((s.port p).link = .active ∨ (s.port p).link = .draining) →
      ∀ c ∈ [Instr.portPresentFall p, .portSignalFall p, .portCtlDisable p.val],
        ∃ t, exec c s = .next t ∧ torn t ∧ (t.port p).score = (s.port p).score) ∧
    ((s.port p).link = .active →
      (∃ t, exec (.portCtlRetrain p.val) s = .next t ∧ torn t ∧ (t.port p).score = (s.port p).score) ∧
      let score := if (s.port p).score < 255 then (s.port p).score + 1 else (s.port p).score
      ((s.port p).cfg.threshold ≤ score → ∃ t, exec (.cellBadCrc ⟨p, true⟩) s = .next t ∧ torn t ∧
        (t.port p).score = score ∧ (t.port p).link = .isolated ∧ (t.port p).cause = .errors))

/-- Signal and grace: a rise brings LOST into TRAINING; a fall in ACTIVE enters LOST with the grace loaded, or WAITING at
once with a grace of 0; the signal-wait expiry isolates with NO_SIGNAL; the grace expiry enters WAITING (R74, R75, R76,
R79, R88). -/
def Obligations.PortSignalMoves : Prop :=
  ∀ (p : PortId) (s : State), s.inReset = false →
    ((s.port p).link = .lost → ∃ t, exec (.portSignalRise p) s = .next t ∧ (t.port p).link = .training ∧
      (t.port p).signal = true ∧ (t.port p).grace = none ∧ (t.port p).train.attempt = 1 ∧
      t = { s with ports := t.ports }) ∧
    ((s.port p).link = .active → ∃ t, exec (.portSignalFall p) s = .next t ∧ (t.port p).signal = false ∧
      ((s.port p).cfg.grace ≠ 0 → (t.port p).link = .lost ∧
        (t.port p).grace = some ((s.port p).cfg.grace * 125000)) ∧
      ((s.port p).cfg.grace = 0 → (t.port p).link = .waiting ∧
        (t.port p).signalWait = some ((s.port p).cfg.signalWait * 125000)) ∧
      (s.tb.ref = some p → s.tb.servo = .track → t.tb.ref = none ∧ t.tb.servo = .holdover ∧ t.tb.slew = 0 ∧
        t.tb.freq = s.tb.freq)) ∧
    ((s.port p).link = .waiting → (s.port p).signalWait.isSome → ∃ t, exec (.signalWaitExpiry p) s = .next t ∧
      (t.port p).link = .isolated ∧ (t.port p).cause = .noSignal ∧ (t.port p).signalWait = none ∧
      (∀ q, q ≠ p → t.port q = s.port q)) ∧
    ((s.port p).link = .lost → (s.port p).signal = false → ∃ t, exec (.graceExpiry p) s = .next t ∧
      (t.port p).link = .waiting ∧ (t.port p).grace = none ∧
      (t.port p).signalWait = some ((s.port p).cfg.signalWait * 125000))

/-- A bad cell counts and scores, and isolates an ACTIVE port when the score reaches the threshold, a score already at 255
included (log 31, the model's choice); a good cell of unknown kind only counts. No cell of any kind does anything on a port
that took no cells as it began to arrive, or that takes none now (log 16). The score decays by 1 at each boundary, in every
state (R78, R87, R88). -/
def Obligations.DamagedCellsCount : Prop :=
  (∀ (p : PortId) (s : State), s.inReset = false →
    let takes := (s.port p).link = .training ∨ (s.port p).link = .active ∨ (s.port p).link = .draining ∨
      (s.port p).link = .quiesced
    (∀ (begun : Bool) (a : SubTick) (mk : MarkerCell) (pr : ProbeCell) (ec : EchoCell) (cr : CreditCell) (r : Nat)
        (sm : SampleCell) (tr : TriggerCell) (cn : CancelCell), (begun = false ∨ ¬takes) →
      let g : ArrivalPort := ⟨p, begun⟩
      ∀ c ∈ [Instr.cellBadCrc g, .cellUnknownKind g, .markerReceived g mk a, .probeReceived g pr a, .echoReceived g ec a,
        .creditReceived g cr, .queryReceived g r, .sampleReceived g sm, .triggerReceived g tr, .cancelReceived g cn,
        .quiesceReceived g, .resumeReceived g], exec c s = .next s) ∧
    (takes → ∃ t, exec (.cellUnknownKind ⟨p, true⟩) s = .next t ∧ t = { s with ports := t.ports } ∧
      t.port p = { s.port p with badCrc := (s.port p).badCrc + 1 } ∧ ∀ q, q ≠ p → t.port q = s.port q) ∧
    (takes → ∃ t, exec (.cellBadCrc ⟨p, true⟩) s = .next t ∧ (t.port p).badCrc = (s.port p).badCrc + 1 ∧
      (t.port p).score = (if (s.port p).score < 255 then (s.port p).score + 1 else (s.port p).score) ∧
      (((s.port p).link ≠ .active ∨ (t.port p).score < (s.port p).cfg.threshold) →
        (t.port p).link = (s.port p).link ∧ t = { s with ports := t.ports }) ∧
      ((s.port p).link = .active → (s.port p).cfg.threshold ≤ (t.port p).score →
        (t.port p).link = .isolated ∧ (t.port p).cause = .errors))) ∧
  ∀ s : State, s.inReset = false → ∃ t, exec .epochBoundary s = .next t ∧ ∀ p : PortId,
    ((s.port p).link ≠ .training ∨ (s.port p).train.probeCount < 8) → (t.port p).score = (s.port p).score - 1

/-- A PROBE of another frame taken in TRAINING, ACTIVE, DRAINING or QUIESCED is answered with an ECHO while the timing queue has
room, and counts as refused without it. In DRAINING it then sets resume-pending; in QUIESCED the port then resumes, with
PORT_RESUMED. An own-frame PROBE is not answered, and in TRAINING isolates with SELF_LOOP. In any other state a PROBE is
discarded. That an own-frame PROBE, which is not answered, still sets resume-pending in DRAINING and resumes a QUIESCED port, and
that the kind of the first cell to set resume-pending is the one kept, is the model's choice, and so is that the timing-refused
count wraps to 0 (R78, R81, R95, R105; log 15, 25, 26, 66). -/
def Obligations.ProbesAreAnswered : Prop :=
  ∀ (p : PortId) (c : ProbeCell) (a : SubTick) (s : State), s.inReset = false →
    let q := s.port p
    let answers := fun x : Port =>
      (q.timingQ.length < 4 → x.timingQ = q.timingQ ++ [.echo s.mgmt.frame c.sender c.attempt c.index a] ∧
        x.timingRefused = q.timingRefused) ∧
      (4 ≤ q.timingQ.length → x.timingQ = q.timingQ ∧ x.timingRefused = q.timingRefused + 1)
    let silent := fun x : Port => x.timingQ = q.timingQ ∧ x.timingRefused = q.timingRefused
    ((q.link ≠ .training ∧ q.link ≠ .active ∧ q.link ≠ .draining ∧ q.link ≠ .quiesced) →
      exec (.probeReceived ⟨p, true⟩ c a) s = .next s) ∧
    (c.sender ≠ s.mgmt.frame → (q.link = .training ∨ q.link = .active) →
      ∃ t, exec (.probeReceived ⟨p, true⟩ c a) s = .next t ∧ t = { s with ports := t.ports } ∧
        (∀ x, x ≠ p → t.port x = s.port x) ∧ answers (t.port p) ∧
        t.port p = { q with timingQ := (t.port p).timingQ, timingRefused := (t.port p).timingRefused }) ∧
    (c.sender = s.mgmt.frame → q.link = .active → exec (.probeReceived ⟨p, true⟩ c a) s = .next s) ∧
    (c.sender = s.mgmt.frame → q.link = .training → ∃ t, exec (.probeReceived ⟨p, true⟩ c a) s = .next t ∧
      (t.port p).link = .isolated ∧ (t.port p).cause = .selfLoop ∧ (t.port p).timingQ = []) ∧
    (q.link = .draining → ∃ t, exec (.probeReceived ⟨p, true⟩ c a) s = .next t ∧ t = { s with ports := t.ports } ∧
      (∀ x, x ≠ p → t.port x = s.port x) ∧
      (c.sender ≠ s.mgmt.frame → answers (t.port p)) ∧ (c.sender = s.mgmt.frame → silent (t.port p)) ∧
      t.port p = { q with
        timingQ := (t.port p).timingQ, timingRefused := (t.port p).timingRefused
        resumePending := true, resumeProbe := if q.resumePending then q.resumeProbe else true }) ∧
    (q.link = .quiesced → ∃ t, exec (.probeReceived ⟨p, true⟩ c a) s = .next t ∧
      (q.signal = true → (t.port p).link = .training ∧ (t.port p).train.attempt = 1 ∧
        (c.sender ≠ s.mgmt.frame → answers (t.port p)) ∧ (c.sender = s.mgmt.frame → silent (t.port p)) ∧
        (canStore .portResumed s →
          t.mgmt.notices = s.mgmt.notices ++ [noticeNow .portResumed p.val 1 0 s])) ∧
      (q.signal = false → (t.port p).timingQ = [] ∧
        ((t.port p).link = .lost ∨ ((t.port p).link = .waiting ∧ q.cfg.grace = 0))))

/-- An ECHO for the outstanding probe, from one responder that is not this hub, writes the round trip at the probe's index
when it lies from 0 to 2 x Dmax, and the probe is outstanding no more (that the outer difference of the round trip is exact is
the model's choice, log 61); an ECHO that does not count changes nothing. A boundary
in TRAINING offers the next of eight probes, a refused one closing the window of the one before, and after the eighth judges
the attempt: ACTIVE with D and the peer, the next attempt, or ISOLATED with DELAY_RANGE or TRAINING. D is the sum of the four
smallest valid round trips over 8, rounded half up; it never exceeds the latched Dmax. That the timing-refused count wraps to 0
is the model's choice (R80, R82 to R84, R88, R105; log 66). -/
def Obligations.EchoesGiveDelay : Prop :=
  (∀ (p : PortId) (c : EchoCell) (t4 t1 : SubTick) (i : Fin 8) (s : State), s.inReset = false →
    (s.port p).link = .training → c.responder ≠ s.mgmt.frame →
    ((s.port p).train.responder = none ∨ (s.port p).train.responder = some c.responder) →
    (s.port p).train.outstanding = some (i.val + 1, t1) →
    (c.sender = s.mgmt.frame → c.attempt = (s.port p).train.attempt → c.index = i.val + 1 →
      ∃ t, exec (.echoReceived ⟨p, true⟩ c t4) s = .next t ∧ t = { s with ports := t.ports } ∧
        (∀ q, q ≠ p → t.port q = s.port q) ∧
        (t.port p).train.outstanding = none ∧ (t.port p).train.responder = some c.responder ∧
        let rt := (t4 - t1).toInt - (c.t3 - c.t2).toInt
        (0 ≤ rt → rt ≤ 2 * (s.port p).train.dmax →
          (t.port p).train.rts = (s.port p).train.rts.set i (some rt.toNat)) ∧
        ((rt < 0 ∨ 2 * (s.port p).train.dmax < rt) → (t.port p).train.rts = (s.port p).train.rts)) ∧
    ((c.sender ≠ s.mgmt.frame ∨ c.attempt ≠ (s.port p).train.attempt ∨ c.index ≠ i.val + 1) →
      exec (.echoReceived ⟨p, true⟩ c t4) s = .next s)) ∧
  (∀ (p : PortId) (s : State), s.inReset = false → (s.port p).link = .training → ∃ t, exec .epochBoundary s = .next t ∧
    let r := (s.port p).train
    let d := computedDelay r.valid
    (r.probeCount < 8 → (t.port p).link = .training ∧
      ((s.port p).timingQ.length < 4 → (t.port p).train = { r with probeCount := r.probeCount + 1 } ∧
        (t.port p).timingQ = (s.port p).timingQ ++ [.probe s.mgmt.frame r.attempt (r.probeCount + 1)]) ∧
      (4 ≤ (s.port p).timingQ.length → (t.port p).timingQ = (s.port p).timingQ ∧
        (t.port p).timingRefused = (s.port p).timingRefused + 1 ∧
        (t.port p).train = { r with
          probeCount := r.probeCount + 1
          outstanding := if r.outstanding.map (·.1) = some r.probeCount then none else r.outstanding })) ∧
    (8 ≤ r.probeCount → r.valid.length < 4 → r.attempt < 3 → (t.port p).link = .training ∧
      (t.port p).train = { r with
        attempt := r.attempt + 1, probeCount := 0, outstanding := none, responder := none
        rts := Vector.replicate 8 none }) ∧
    (8 ≤ r.probeCount → r.valid.length < 4 → 3 ≤ r.attempt → (t.port p).link = .isolated ∧
      (t.port p).cause = .training) ∧
    (8 ≤ r.probeCount → 4 ≤ r.valid.length → r.dmin ≤ d → (t.port p).link = .active ∧ (t.port p).delay = d ∧
      (t.port p).peer = r.responder.getD (s.port p).peer ∧ (t.port p).score = 0) ∧
    (8 ≤ r.probeCount → 4 ≤ r.valid.length → d < r.dmin → (t.port p).link = .isolated ∧
      (t.port p).cause = .delayRange ∧ (t.port p).delay = (s.port p).delay)) ∧
  (∀ t : Training, 4 ≤ t.valid.length → (∀ i : Fin 8, ∀ rt, t.rts[i] = some rt → rt ≤ 2 * t.dmax) →
    t.valid.Perm (t.rts.toList.filterMap id) ∧ t.valid.Pairwise (· ≤ ·) ∧
      computedDelay t.valid = ((t.valid.take 4).sum + 4) / 8 ∧ computedDelay t.valid ≤ t.dmax)

/-- `port.ctl` enable and disable, drain, resume and retrain: the state each leaves, by the state it finds, and STATE in every
state that does not take it. A retrain from ACTIVE leaves the port in TRAINING with its queues empty and its record begun anew;
one in TRAINING leaves the cells queued; and a training entered with signal detect low is lost at once, by way of LOST also with
a grace of 0 (log 26, the model's choice). A resume of an ISOLATED port goes by presence, signal and frame number. A port number out of
range is refused. The model's own count of an earlier run's probes begins at 0 (R75, R76, R79, R86, R88, R89, R94, R100, R101;
log 26, 38). -/
def Obligations.PortCtlMovesLink : Prop :=
  ∀ (p : PortId) (s : State), s.inReset = false →
    (∃ t, exec (.portCtlEnable p.val) s = .next t ∧ t.mgmt = (answered .ok [] s).mgmt ∧
      t = { s with ports := t.ports, mgmt := t.mgmt } ∧
      (t.port p).link = (if (s.port p).link = .disabled then
          (if (s.port p).present then .settling else .empty) else (s.port p).link)) ∧
    (∃ t, exec (.portCtlDisable p.val) s = .next t ∧ (t.port p).link = .disabled ∧
      t.mgmt.answer = some { status := .ok, body := [] }) ∧
    ((s.port p).link = .active → ∃ t, exec (.portCtlDrain p.val) s = .next t ∧ (t.port p).link = .draining ∧
      (t.port p).drain = some ((s.port p).cfg.drainTimeout * 125000) ∧ t.tb.ref ≠ some p ∧
      ((s.port p).ctrlQ.length < 16 → (t.port p).ctrlQ = (s.port p).ctrlQ ++ [.quiesce]) ∧
      (16 ≤ (s.port p).ctrlQ.length → (t.port p).quiesceOwed = true) ∧
      t.mgmt.answer = some { status := .ok, body := [] }) ∧
    ((s.port p).link = .quiesced → (s.port p).signal = true → (s.port p).ctrlQ = [] →
      ∃ t, exec (.portCtlResume p.val) s = .next t ∧ (t.port p).link = .training ∧
        (t.port p).ctrlQ = [.resume] ∧ t.mgmt = (answered .ok [] s).mgmt) ∧
    ((s.port p).link = .isolated → (s.port p).present = false → ∃ t, exec (.portCtlResume p.val) s = .next t ∧
      (t.port p).link = .empty ∧ (t.port p).cause = (s.port p).cause ∧ t.mgmt = (answered .ok [] s).mgmt) ∧
    ((s.port p).link = .training → (s.port p).signal = true → ∃ t, exec (.portCtlRetrain p.val) s = .next t ∧
      (t.port p).link = .training ∧ (t.port p).train.attempt = 1 ∧ (t.port p).train.probeCount = 0 ∧
      (t.port p).timingQ = (s.port p).timingQ ∧ t.mgmt = (answered .ok [] s).mgmt) ∧
    ((s.port p).link = .active → (s.port p).signal = true → ∃ t, exec (.portCtlRetrain p.val) s = .next t ∧
      (t.port p).link = .training ∧ (t.port p).timingQ = [] ∧ (t.port p).ctrlQ = [] ∧ (t.port p).flight = none ∧
      (t.port p).train = {
        attempt := 1, probeCount := 0, outstanding := none, rts := Vector.replicate 8 none
        dmin := (s.port p).cfg.dmin, dmax := (s.port p).cfg.dmax, responder := none, earlier := 0 } ∧
      t.mgmt.answer = some { status := .ok, body := [] }) ∧
    (∀ c, ((s.port p).link = .quiesced ∧ c = .portCtlResume p.val) ∨
        (((s.port p).link = .active ∨ (s.port p).link = .training) ∧ c = .portCtlRetrain p.val) →
      (s.port p).signal = false → ∃ t, exec c s = .next t ∧ (t.port p).timingQ = [] ∧ (t.port p).ctrlQ = [] ∧
        (t.port p).flight = none ∧ (t.port p).train.outstanding = none ∧
        ((s.port p).cfg.grace ≠ 0 → (t.port p).link = .lost ∧
          (t.port p).grace = some ((s.port p).cfg.grace * 125000)) ∧
        ((s.port p).cfg.grace = 0 → (t.port p).link = .waiting ∧
          (t.port p).signalWait = some ((s.port p).cfg.signalWait * 125000)) ∧
        t.mgmt.answer = some { status := .ok, body := [] }) ∧
    ((s.port p).link = .isolated → (s.port p).present = true → ∃ t, exec (.portCtlResume p.val) s = .next t ∧
      t = { answered .ok [] s with ports := t.ports } ∧ (∀ q, q ≠ p → t.port q = s.port q) ∧
      (t.port p).cause = (s.port p).cause ∧
      ((s.port p).signal = false → (t.port p).link = .waiting ∧
        (t.port p).signalWait = some ((s.port p).cfg.signalWait * 125000)) ∧
      ((s.port p).signal = true → s.mgmt.frame = 0 → (t.port p).link = .waiting ∧ (t.port p).signalWait = none) ∧
      ((s.port p).signal = true → s.mgmt.frame ≠ 0 → (t.port p).link = .training ∧ (t.port p).train.attempt = 1 ∧
        (t.port p).train.probeCount = 0)) ∧
    (((s.port p).link = .draining ∨ (s.port p).link = .quiesced) →
      exec (.portCtlDrain p.val) s = .next (answered .ok [] s)) ∧
    ((s.port p).link ≠ .active → (s.port p).link ≠ .draining → (s.port p).link ≠ .quiesced →
      exec (.portCtlDrain p.val) s = .next (answered .state [] s)) ∧
    ((s.port p).link ≠ .quiesced → (s.port p).link ≠ .isolated →
      exec (.portCtlResume p.val) s = .next (answered .state [] s)) ∧
    ((s.port p).link ≠ .active → (s.port p).link ≠ .training →
      exec (.portCtlRetrain p.val) s = .next (answered .state [] s)) ∧
    ∀ n, 4 ≤ n → ∀ c ∈ [Instr.portCtlEnable n, .portCtlDisable n, .portCtlDrain n, .portCtlResume n, .portCtlRetrain n],
      exec c s = .next (answered .badValue [] s)

/-- A QUIESCE on an ACTIVE port starts its drain without an answer; a RESUME resumes a quiesced port and marks a draining
one; a complete or timed-out drain ends in QUIESCED with PORT_QUIESCED, or in TRAINING with PORT_RESUMED when the peer has
resumed. A boundary clears the two owed flags where they no longer apply, and places an owed QUIESCE of a DRAINING port and an
owed RESUME of a TRAINING one while there is room, before any other owed cell: a QUIESCE where the credit timeout of that boundary
abandons no destination, which may offer the port a CREDIT first. That the resumed notice names the kind of cell that first set
resume-pending is the model's choice (R90 to R93, R95, R103, R107, R118; log 15). -/
def Obligations.DrainAndResume : Prop :=
  (∀ (p : PortId) (s : State), s.inReset = false →
    ((s.port p).link = .active → ∃ t, exec (.quiesceReceived ⟨p, true⟩) s = .next t ∧ (t.port p).link = .draining ∧
      (t.port p).drain = some ((s.port p).cfg.drainTimeout * 125000) ∧ (t.port p).ctrlQ = (s.port p).ctrlQ) ∧
    ((s.port p).link ≠ .active → exec (.quiesceReceived ⟨p, true⟩) s = .next s) ∧
    ((s.port p).link = .draining → ∃ t, exec (.resumeReceived ⟨p, true⟩) s = .next t ∧
      (t.port p).resumePending = true ∧ (t.port p).link = .draining ∧ t = { s with ports := t.ports }) ∧
    ((s.port p).link = .quiesced → (s.port p).signal = true → ∃ t, exec (.resumeReceived ⟨p, true⟩) s = .next t ∧
      (t.port p).link = .training) ∧
    ((s.port p).link = .draining → drainDone s p = true → ∃ t, exec (.drainComplete p) s = .next t ∧
      (t.port p).drain = none ∧
      ((s.port p).resumePending = false → (t.port p).link = .quiesced ∧
        (canStore .portQuiesced s → t.mgmt.notices = s.mgmt.notices ++ [noticeNow .portQuiesced p.val 0 0 s])) ∧
      ((s.port p).resumePending = true → (s.port p).signal = true → (t.port p).link = .training ∧
        (t.port p).resumePending = false ∧ (canStore .portResumed s → t.mgmt.notices = s.mgmt.notices ++
          [noticeNow .portResumed p.val (if (s.port p).resumeProbe then 1 else 0) 0 s]))) ∧
    ((s.port p).link = .draining → ∃ t, exec (.drainTimeout p) s = .next t ∧ (t.port p).timingQ = [] ∧
      (t.port p).ctrlQ = [] ∧ (t.port p).flight = none ∧ (t.port p).drain = none ∧
      (∀ en, ∀ b ∈ (t.entry en).ring, b.pendPorts.getLsbD p.val = false) ∧
      (∀ x ∈ t.trg.queue, x.pendPorts.getLsbD p.val = false ∧ x.owedPorts.getLsbD p.val = false) ∧
      let quiet := ∀ en, (s.entry en).state ≠ .stalled ∧ (s.entry en).state ≠ .closing
      ((s.port p).resumePending = false → (t.port p).link = .quiesced ∧ (quiet → canStore .portQuiesced s →
        t.mgmt.notices = s.mgmt.notices ++ [noticeNow .portQuiesced p.val 1 0 s])) ∧
      ((s.port p).resumePending = true → (s.port p).signal = true → (t.port p).link = .training ∧
        (t.port p).train.attempt = 1 ∧ (t.port p).train.probeCount = 0 ∧ (t.port p).resumePending = false ∧
        (quiet → canStore .portResumed s → t.mgmt.notices = s.mgmt.notices ++
          [noticeNow .portResumed p.val (if (s.port p).resumeProbe then 1 else 0) 0 s])))) ∧
  ∀ (p : PortId) (s : State), s.inReset = false → ∃ t, exec .epochBoundary s = .next t ∧
    ((s.port p).link ≠ .draining → (t.port p).quiesceOwed = false) ∧
    ((s.port p).link ≠ .training → (t.port p).resumeOwed = false) ∧
    let idle := s.xmit.creditTimeout = 0 ∧ ∀ en, (s.entry en).state ≠ .closing
    ((s.port p).ctrlQ.length < 16 →
      ((s.port p).link = .draining → (s.port p).quiesceOwed = true →
        (s.xmit.creditTimeout = 0 ∨ ∀ en, (s.entry en).source ≠ .port p) →
        .quiesce ∈ (t.port p).ctrlQ ∧ (t.port p).quiesceOwed = false ∧
          (idle → ∃ rest, (t.port p).ctrlQ = (s.port p).ctrlQ ++ .quiesce :: rest)) ∧
      ((s.port p).link = .training → (s.port p).train.probeCount < 8 → (s.port p).resumeOwed = true →
        .resume ∈ (t.port p).ctrlQ ∧ (t.port p).resumeOwed = false ∧
          (idle → ∃ rest, (t.port p).ctrlQ = (s.port p).ctrlQ ++ .resume :: rest)))

/-! ### Cell transmission (chapter 5) -/

/-- A free port starts its oldest timing cell in TRAINING, ACTIVE, DRAINING and QUIESCED, then its oldest control cell but in
QUIESCED, and only then a SAMPLE, in ACTIVE and DRAINING; in any other state, and while a cell is in flight, it starts nothing.
Each kind of cell carries what its rule gives, with the values in force as it departs: a PROBE its t1, an ECHO its t3, a CREDIT
the computed limit, which becomes the last advertised, a TRIGGER or CANCEL what it was queued with, its departure taking the
port out of the pending sets. A PROBE of the attempt under way closes the window of the one before it and becomes outstanding
while its own is open; one left by an earlier run does not. That, and that the id alone says which record a departing TRIGGER or
CANCEL belongs to, is the model's choice (log 23 and 38). A MARKER carries hop 0 from the root,
one more than the reference's from a member in TRACK, and 31 otherwise (R6, R77, R80 to R82, R104, R108, R109, R115). -/
def Obligations.DepartureTakesClassOrder : Prop :=
  (∀ (p : PortId) (s : State), s.inReset = false →
    let q := s.port p
    let sends := q.link = .training ∨ q.link = .active ∨ q.link = .draining ∨ q.link = .quiesced
    let starts := fun (c : Cell) (en : Option EntryId) => some ({ cell := c, entry := en, stale := false } : Flight)
    let othersStay := fun t : State => ∀ x, x ≠ p → t.port x = s.port x
    ((q.flight.isSome ∨ ¬sends) → exec (.cellDeparture p) s = .next s) ∧
    (q.flight = none → sends →
      (∀ rest, q.timingQ = .marker :: rest → ∃ t, exec (.cellDeparture p) s = .next t ∧ othersStay t ∧
        t = { s with ports := t.ports } ∧ t.port p = { q with
          timingQ := rest, startedTiming := q.startedTiming + 1, flight := starts (.marker (markerNow s)) none }) ∧
      (∀ rs sd at' ix t2 rest, q.timingQ = .echo rs sd at' ix t2 :: rest →
        ∃ t, exec (.cellDeparture p) s = .next t ∧ othersStay t ∧ t = { s with ports := t.ports } ∧
          t.port p = { q with
            timingQ := rest, startedTiming := q.startedTiming + 1
            flight := starts (.echo {
              responder := rs, sender := sd, attempt := at', index := ix, t2 := t2, t3 := s.tb.reading }) none }) ∧
      ∀ sd at' ix rest, q.timingQ = .probe sd at' ix :: rest →
        ∃ t, exec (.cellDeparture p) s = .next t ∧ othersStay t ∧ t = { s with ports := t.ports } ∧
          t.port p = { q with
            timingQ := rest, startedTiming := q.startedTiming + 1, train := (t.port p).train
            flight := starts (.probe { sender := sd, attempt := at', index := ix, t1 := s.tb.reading }) none } ∧
          (0 < q.train.earlier → (t.port p).train = { q.train with earlier := q.train.earlier - 1 }) ∧
          (q.train.earlier = 0 → (q.link ≠ .training ∨ q.train.attempt ≠ at') → (t.port p).train = q.train) ∧
          (q.train.earlier = 0 → q.link = .training → q.train.attempt = at' →
            let isOpen := q.train.probeCount = ix ∨ ∃ f, .probe f at' (ix + 1) ∈ rest
            (isOpen → (t.port p).train = { q.train with outstanding := some (ix, s.tb.reading) }) ∧
            (¬isOpen → (t.port p).train = { q.train with outstanding := none }))) ∧
    (q.flight = none → sends → q.timingQ = [] → (q.link = .quiesced ∨ (q.link = .training ∧ q.ctrlQ = [])) →
      exec (.cellDeparture p) s = .next s) ∧
    (q.flight = none → (q.link = .training ∨ q.link = .active ∨ q.link = .draining) → q.timingQ = [] →
      (∀ en rest, q.ctrlQ = .credit en :: rest →
        let l := (s.entry en).nextExp + BitVec.ofNat 16 ((s.entry en).len - (s.entry en).ring.length) - 1
        ∃ t, exec (.cellDeparture p) s = .next t ∧ t = { s with ports := t.ports, entries := t.entries } ∧ othersStay t ∧
          t.port p = { q with
            ctrlQ := rest, startedControl := q.startedControl + 1
            flight := starts (.credit { rackId := (s.entry en).rackId, limit := l }) (some en) } ∧
          (∀ x, x ≠ en → t.entry x = s.entry x) ∧ t.entry en = { s.entry en with lastAdv := some l }) ∧
      (∀ c rest, q.ctrlQ = c :: rest →
        (∀ en, c = .query en → ∃ t, exec (.cellDeparture p) s = .next t ∧ t = { s with ports := t.ports } ∧ othersStay t ∧
          t.port p = { q with
            ctrlQ := rest, startedControl := q.startedControl + 1
            flight := starts (.query (s.entry en).rackId) (some en) }) ∧
        ((c = .quiesce ∨ c = .resume) → ∃ t, exec (.cellDeparture p) s = .next t ∧ t = { s with ports := t.ports } ∧
          othersStay t ∧ t.port p = { q with
            ctrlQ := rest, startedControl := q.startedControl + 1
            flight := starts (if c = .quiesce then .quiesce else .resume) none }) ∧
        ∀ (id : TrigId) (x : Cell), ((∃ y, c = .trigger y ∧ x = .trigger y ∧ y.id = id) ∨
            ∃ y, c = .cancel y ∧ x = .cancel y ∧ y.id = id) →
          ∃ t, exec (.cellDeparture p) s = .next t ∧ t = { s with ports := t.ports, trg := t.trg } ∧ othersStay t ∧
            t.port p = { q with
              ctrlQ := rest, startedControl := q.startedControl + 1, flight := starts x none } ∧
            (∀ y ∈ t.trg.queue, y.id = id → y.pendPorts.getLsbD p.val = false) ∧
            (∀ y ∈ t.trg.history, y.id = id → ∀ f, y.forward = some f → f.pendPorts.getLsbD p.val = false) ∧
            t.trg.queue.map (·.id) = s.trg.queue.map (·.id) ∧ t.trg.history.map (·.id) = s.trg.history.map (·.id))) ∧
    (q.flight = none → (q.link = .active ∨ q.link = .draining) → q.timingQ = [] → q.ctrlQ = [] →
      (arbiterGrant s p = none → exec (.cellDeparture p) s = .next s) ∧
      ∀ en l1 l2, arbiterGrant s p = some (en, l1, l2) →
        ∃ t b, exec (.cellDeparture p) s = .next t ∧
          (s.entry en).ring.find? (fun c => !c.isOpen && c.pendPorts.getLsbD p.val) = some b ∧
          t = { s with ports := t.ports } ∧ othersStay t ∧ t.port p = { q with
            level1 := l1, level2 := l2, startedSample := q.startedSample + 1
            flight := starts (.sample {
              rackId := (s.entry en).rackId, seq := b.seq, stamp := b.stamp, trusted := b.trusted, disc := b.disc
              short := b.short, mark := b.mark, extraMarks := b.extraMarks
              payload := Memory.readBytes s.buffer (b.slot * 512) b.len }) (some en) })) ∧
  (∀ s : State, s.inReset = false →
      (markerNow s).sender = s.mgmt.frame ∧ (markerNow s).stamp = s.tb.reading ∧ (markerNow s).epoch = s.tb.epoch ∧
      (markerNow s).grade = s.win.grade.on ∧
      (s.tb.role = .root → (markerNow s).hop = 0 ∧ (markerNow s).upstream = 0 ∧
        (markerNow s).aligned = s.org.aligned) ∧
      (s.tb.role = .member → ∀ r m, s.tb.ref = some r → (s.port r).marker = some m →
        (markerNow s).hop = (if s.tb.servo = .track then min 31 (m.hop + 1) else 31) ∧
        (markerNow s).upstream = (s.port r).peer ∧ (markerNow s).aligned = m.aligned) ∧
      (s.tb.role = .member → s.tb.ref = none →
        (markerNow s).hop = 31 ∧ (markerNow s).upstream = 0 ∧ (markerNow s).aligned = false))

/-- The arbiter grants the first candidate after its pointers: a candidate is an entry in service with a block pending for the
port, within its credit when it is LOSSLESS; a priority entry wins at its own level-1 position, and all the others share
position 32, where level 2 picks the first of them after its own pointer. With no candidate it grants nothing. A completion
frees the port; a SAMPLE that is not stale clears its block's mark for the port and no other: the block stays with the ports and
slots left in its pending set, or retires when none is left; and a stale one clears nothing (R110, R112, R113, R145). -/
def Obligations.ArbiterAndCompletion : Prop :=
  (∀ (p : PortId) (s : State),
    let cand := fun en : EntryId =>
      ((s.entry en).state = .running ∨ (s.entry en).state = .stalled ∨ (s.entry en).state = .closing) ∧
        ∃ b, (s.entry en).ring.find? (fun c => !c.isOpen && c.pendPorts.getLsbD p.val) = some b ∧
          ((s.entry en).mode = .live ∨ ∃ l, (s.entry en).credit[p].limit = some l ∧ (l - b.seq).toNat < 2 ^ 15)
    let after1 := fun i : Nat => ((i : Int) - (s.port p).level1 - 1) % 33
    let after2 := fun i : Nat => ((i : Int) - (s.port p).level2 - 1) % 32
    (∀ en l1 l2, arbiterGrant s p = some (en, l1, l2) → cand en ∧
      ((s.entry en).priority = true → l1 = en.val ∧ l2 = (s.port p).level2 ∧
        ∀ x, cand x → after1 en.val ≤ after1 (if (s.entry x).priority then x.val else 32)) ∧
      ((s.entry en).priority = false → l1 = 32 ∧ l2 = en.val ∧
        ∀ x, cand x → ((s.entry x).priority = true → after1 32 < after1 x.val) ∧
          ((s.entry x).priority = false → after2 en.val ≤ after2 x.val))) ∧
    ((∀ en, ¬cand en) → arbiterGrant s p = none) ∧
    (arbiterGrant s p = none → ∀ en, ¬cand en)) ∧
  (∀ (p : PortId) (f : Flight) (s : State), s.inReset = false → (s.port p).flight = some f →
    (∃ t, exec (.cellCompletion p) s = .next t ∧ (t.port p).flight = none) ∧
    ((f.stale = true ∨ f.entry = none) → ∃ t, exec (.cellCompletion p) s = .next t ∧
      t.port p = { s.port p with flight := none } ∧ (∀ q, q ≠ p → t.port q = s.port q) ∧
      t = { s with ports := t.ports }) ∧
    ∀ en c, f = { cell := .sample c, entry := some en, stale := false } →
      ∃ t, exec (.cellCompletion p) s = .next t ∧
        (∀ x, x ≠ en → (t.entry x).ring = (s.entry x).ring) ∧
        (∀ b ∈ (t.entry en).ring, b.seq = c.seq → b.pendPorts.getLsbD p.val = false) ∧
        (∀ b ∈ (s.entry en).ring, b.seq ≠ c.seq → (b.isOpen = true ∨ b.pendPorts ≠ 0 ∨ b.pendSlots ≠ 0) →
          b ∈ (t.entry en).ring) ∧
        let others := fun b : Block => ∃ q, q ≠ p ∧ b.pendPorts.getLsbD q.val = true
        let less := fun b x : Block => x = { b with pendPorts := x.pendPorts } ∧
          x.pendPorts.getLsbD p.val = false ∧ ∀ q, q ≠ p → x.pendPorts.getLsbD q.val = b.pendPorts.getLsbD q.val
        (∀ b ∈ (s.entry en).ring, b.seq = c.seq → (b.isOpen = true ∨ b.pendSlots ≠ 0 ∨ others b) →
          ∃ x ∈ (t.entry en).ring, less b x) ∧
        ∀ front b back, (s.entry en).ring = front ++ b :: back → b.seq = c.seq →
          (∀ x ∈ front ++ back, x.seq ≠ c.seq ∧ (x.isOpen = true ∨ x.pendPorts ≠ 0 ∨ x.pendSlots ≠ 0)) →
          ((b.isOpen = true ∨ b.pendSlots ≠ 0 ∨ others b) → (∃ x, (t.entry en).ring = front ++ x :: back ∧ less b x) ∧
            (t.entry en).counters = (s.entry en).counters) ∧
          (b.isOpen = false → b.pendSlots = 0 → ¬others b → (t.entry en).ring = front ++ back ∧
            (t.entry en).counters =
              { (s.entry en).counters with retired := (s.entry en).counters.retired + 1 }))

/-- A CREDIT sets the limit of its arrival port's record whatever the old limit, and clears the counts as R114 gives; one for a
LIVE entry or an unknown rack id is discarded. A QUERY is answered by the advertising entry with a CREDIT, queued, owed or
already waiting; any other is ignored. At a boundary the credit timeout of a LOSSLESS entry counts while the oldest block
pending for a port lies beyond the limit, and starts again when it does not; at the timeout a QUERY joins the queue or finds
one waiting, and both counts move, or at the retry limit the destination is abandoned, with no mark, QUERY or credit left for
it. What the counts do while the timeout is 0 (log 29), and that the query count must equal the retry limit (log 30), are the
model's choice (R106, R107, R112, R114 to R118; log 29, log 30). -/
def Obligations.CreditsAndQueries : Prop :=
  (∀ (p : PortId) (c : CreditCell) (s : State), s.inReset = false → (s.port p).link = .active →
      (entryOfRack s c.rackId = none → exec (.creditReceived ⟨p, true⟩ c) s = .next s) ∧
      ∀ en, entryOfRack s c.rackId = some en →
        ((s.entry en).mode = .live → exec (.creditReceived ⟨p, true⟩ c) s = .next s) ∧
        ((s.entry en).mode = .lossless → (s.entry en).destPorts.getLsbD p.val = true →
          (s.entry en).abandonedPorts.getLsbD p.val = false → ∃ t, exec (.creditReceived ⟨p, true⟩ c) s = .next t ∧
            t = { s with entries := t.entries } ∧ (∀ x, x ≠ en → t.entry x = s.entry x) ∧
            t.entry en = { s.entry en with credit := (t.entry en).credit } ∧
            (∀ q, q ≠ p → (t.entry en).credit[q] = (s.entry en).credit[q]) ∧
            ((t.entry en).credit[p]).limit = some c.limit ∧ ((t.entry en).credit[p]).queries = 0 ∧
            ((s.entry en).credit[p].limit = none → ((t.entry en).credit[p]).timeouts = 0) ∧
            (∀ old, (s.entry en).credit[p].limit = some old →
              ((t.entry en).credit[p]).timeouts =
                if 1 ≤ (c.limit - old).toNat ∧ (c.limit - old).toNat < 2 ^ 15 then 0
                else (s.entry en).credit[p].timeouts))) ∧
  (∀ (p : PortId) (en : EntryId) (b : Block) (s : State), s.inReset = false →
    let e := s.entry en
    let r := e.credit[p]
    e.mode = .lossless → (e.state = .running ∨ e.state = .stalled) → e.destPorts.getLsbD p.val = true →
    e.ring.find? (fun c => !c.isOpen && c.pendPorts.getLsbD p.val) = some b →
    let blocked := r.limit = none ∨ ∃ l, r.limit = some l ∧ 2 ^ 15 ≤ (l - b.seq).toNat
    let n := if r.timeouts < 255 then r.timeouts + 1 else r.timeouts
    let asks := blocked ∧ s.xmit.creditTimeout ≠ 0 ∧ s.xmit.creditTimeout ≤ n
    let gives := s.xmit.retryLimit ≠ 0 ∧ r.queries = s.xmit.retryLimit
    ∃ t, exec .epochBoundary s = .next t ∧
      (¬blocked → (t.entry en).credit[p] = { r with timeouts := 0 }) ∧
      (blocked → s.xmit.creditTimeout = 0 → (t.entry en).credit[p] = r) ∧
      (blocked → n < s.xmit.creditTimeout → (t.entry en).credit[p] = { r with timeouts := n }) ∧
      (asks → ¬gives → (s.port p).link = .active →
        let counted := (t.entry en).credit[p] =
          { r with timeouts := 0, queries := if r.queries < 15 then r.queries + 1 else r.queries }
        (.query en ∈ (s.port p).ctrlQ → counted) ∧
        (.query en ∉ (s.port p).ctrlQ → (s.port p).ctrlQ.length < 16 → e.source ≠ .port p →
          (∀ x, (s.entry x).owedCredit = false ∧ (x ≠ en → (s.entry x).state = .closed)) →
          counted ∧ .query en ∈ (t.port p).ctrlQ)) ∧
      (asks → gives → (t.entry en).abandonedPorts.getLsbD p.val = true ∧ .query en ∉ (t.port p).ctrlQ ∧
        (t.entry en).credit[p] = { limit := none, timeouts := 0, queries := 0 } ∧
        ∀ c ∈ (t.entry en).ring, c.pendPorts.getLsbD p.val = false)) ∧
  (∀ (p : PortId) (rackId : Nat) (en : EntryId) (s : State), s.inReset = false → (s.port p).link = .active →
      entryOfRack s rackId = some en →
      ((s.entry en).source ≠ .port p ∨ (s.entry en).mode = .live ∨ (s.entry en).state ≠ .running →
        exec (.queryReceived ⟨p, true⟩ rackId) s = .next s) ∧
      ((s.entry en).source = .port p → (s.entry en).mode = .lossless → (s.entry en).state = .running →
        ((.credit en) ∈ (s.port p).ctrlQ → exec (.queryReceived ⟨p, true⟩ rackId) s = .next s) ∧
        ((.credit en) ∉ (s.port p).ctrlQ → ∃ t, exec (.queryReceived ⟨p, true⟩ rackId) s = .next t ∧
          t = { s with ports := t.ports, entries := t.entries } ∧
          (∀ q, q ≠ p → t.port q = s.port q) ∧ (∀ x, x ≠ en → t.entry x = s.entry x) ∧
          ((s.port p).ctrlQ.length < 16 →
            t.port p = { s.port p with ctrlQ := (s.port p).ctrlQ ++ [.credit en] } ∧
            t.entry en = { s.entry en with owedCredit := false }) ∧
          (16 ≤ (s.port p).ctrlQ.length → t.port p = s.port p ∧
            t.entry en = { s.entry en with owedCredit := true }))))

/-! ### Streams (chapter 6) -/

/-- `strm.open`: the checks in their order, and the entry an accepted request sets up; no other entry changes. A body too short
for its required fields is refused like a field out of range, after the entry number and BUSY (R126, R128, R130, R197, R209). -/
def Obligations.StrmOpenSetsEntry : Prop :=
  (∀ pins (en : Byte) (body : List Byte), body.length < 18 → ∃ r : StrmOpenReq,
      requestOf pins 0x50 (en :: body) = .ok (.strmOpen r) ∧ r.entry = en.toNat ∧ r.rackId = 0) ∧
  ∀ (r : StrmOpenReq) (s : State), s.inReset = false →
    (32 ≤ r.entry → exec (.strmOpen r) s = .next (answered .badValue [] s)) ∧
    ∀ en : EntryId, r.entry = en.val →
      ((s.entry en).state ≠ .closed → exec (.strmOpen r) s = .next (answered .busy [] s)) ∧
      ((s.entry en).state = .closed → (r.rackId = 0 ∨ 1023 < r.rackId ∨ r.len < 2 ∨ 4096 < r.base + r.len) →
        exec (.strmOpen r) s = .next (answered .badValue [] s)) ∧
      ∀ (m : StreamMode) (src : Source), (s.entry en).state = .closed → r.mode = m.code → r.source = src.code →
        1 ≤ r.rackId → r.rackId ≤ 1023 → 16 ≤ r.payload → r.payload ≤ 512 → r.payload % 16 = 0 →
        (r.width = 2 ∨ r.width = 4) → 2 ≤ r.interval → r.interval ≤ 65536 → 2 ≤ r.len → r.len ≤ 1024 →
        r.base + r.len ≤ 4096 → r.destPorts.toNat < 16 → (∀ v, r.priority = some v → v ≤ 1) →
        (∀ v, r.gate = some v → v ≤ 1) → (∀ v, r.ageLimit = some v → 1 ≤ v ∧ v ≤ 255) →
        (∀ v, r.holdLimit = some v → 1 ≤ v ∧ v ≤ 255) → (∀ v, r.drainLimit = some v → 1 ≤ v ∧ v ≤ 255) →
        (∀ v, r.latency = some v → v ≤ 16777215) → (∀ v, r.initSeq = some v → v ≤ 65535) →
        let other := fun x : EntryId => x ≠ en ∧ (s.entry x).state ≠ .closed
        let held := ∃ x, other x ∧ (s.entry x).rackId = r.rackId
        let apart := fun b l : Nat => r.base + r.len ≤ b ∨ b + l ≤ r.base
        let clear := ∀ x, other x → apart (s.entry x).base (s.entry x).len ∧
          ∀ w, (s.entry x).stagedWin = some w → apart w.1 w.2
        let taken := ∃ x, other x ∧
          ((∃ k, src = .slot k ∧ (s.entry x).source = src) ∨ (s.entry x).destSlots &&& r.destSlots ≠ 0)
        let named := (∃ p : PortId, src = .port p ∧ r.destPorts.getLsbD p.val = true) ∨
          ∃ k : SlotId, src = .slot k ∧ r.destSlots.getLsbD k.val = true
        (named → exec (.strmOpen r) s = .next (answered .badValue [] s)) ∧
        (¬named → held → exec (.strmOpen r) s = .next (answered .duplicate [] s)) ∧
        (¬named → ¬held → ¬clear → exec (.strmOpen r) s = .next (answered .overlap [] s)) ∧
        (¬named → ¬held → clear → taken → exec (.strmOpen r) s = .next (answered .slotBusy [] s)) ∧
        (¬named → ¬held → clear → ¬taken → ∃ t, exec (.strmOpen r) s = .next t ∧
          t = { answered .ok [] s with entries := t.entries } ∧ (∀ x, x ≠ en → t.entry x = s.entry x) ∧
          t.entry en = { t.entry en with
            state := .ready, opened := true, rackId := r.rackId, mode := m, priority := decide (r.priority = some 1)
            gate := decide (r.gate = some 1), source := src, destPorts := BitVec.ofNat 4 r.destPorts.toNat
            destSlots := r.destSlots, abandonedPorts := 0, payload := r.payload, width := r.width
            interval := r.interval, ageLimit := r.ageLimit.getD 2, holdLimit := r.holdLimit.getD 4
            drainLimit := r.drainLimit.getD 16, latency := r.latency.getD 0 } ∧
          t.entry en = { t.entry en with
            initSeq := BitVec.ofNat 16 (r.initSeq.getD 0), nextSeq := BitVec.ofNat 16 (r.initSeq.getD 0)
            nextExp := BitVec.ofNat 16 (r.initSeq.getD 0), base := r.base, len := r.len, stagedWin := none
            writePos := r.base, ring := [], outside := none, lastAdv := none, owedCredit := false
            credit := Vector.replicate 4 { limit := none, timeouts := 0, queries := 0 }, discOwed := true
            hold := false, holdCount := 0, drainCount := 0, counters := StreamCounters.zero })

/-- `strm.start`: by state, the source slot's presence, and the dividers that the next boundary leaves in force; a LOSSLESS
receiving entry offers its first CREDIT at once (R131). -/
def Obligations.StrmStartRuns : Prop :=
  ∀ (en : EntryId) (s : State), s.inReset = false →
    let e := s.entry en
    let next := fun k : SlotId => ((s.slot k).stagedClk.map (·.1)).getD (s.slot k).divider
    (e.state = .closed → exec (.strmStart en.val) s = .next (answered .noEntry [] s)) ∧
    ((e.state = .running ∨ e.state = .closing) → exec (.strmStart en.val) s = .next (answered .state [] s)) ∧
    (∀ k, e.state = .ready → e.source = .slot k → (s.slot k).presence ≠ .present →
      exec (.strmStart en.val) s = .next (answered .state [] s)) ∧
    (∀ k, e.state = .ready → e.source = .slot k → (s.slot k).presence = .present →
      (∃ j : SlotId, (j = k ∨ e.destSlots.getLsbD j.val = true) ∧ next j ≠ e.interval) →
      exec (.strmStart en.val) s = .next (answered .divider [] s)) ∧
    (∀ k, e.state = .ready → e.source = .slot k → (s.slot k).presence = .present →
      (∀ j : SlotId, (j = k ∨ e.destSlots.getLsbD j.val = true) → next j = e.interval) →
      ∃ t, exec (.strmStart en.val) s = .next t ∧ t = { answered .ok [] s with entries := t.entries } ∧
        (∀ x, x ≠ en → t.entry x = s.entry x) ∧
        t.entry en = { e with
          state := .running, awaitBoundary := true, discOwed := true, hold := (t.entry en).hold
          holdCount := (t.entry en).holdCount } ∧
        ((t.entry en).hold = true ↔ e.mode = .lossless ∧ e.len ≤ e.ring.length ∧ hasOpen e = false)) ∧
    (∀ p, e.state = .ready → e.source = .port p →
      ((∃ j : SlotId, e.destSlots.getLsbD j.val = true ∧ next j ≠ e.interval) →
        exec (.strmStart en.val) s = .next (answered .divider [] s)) ∧
      ((∀ j : SlotId, e.destSlots.getLsbD j.val = true → next j = e.interval) →
        ∃ t, exec (.strmStart en.val) s = .next t ∧ (t.entry en).state = .running ∧
          t = { answered .ok [] s with entries := t.entries, ports := t.ports } ∧
          (∀ q, q ≠ p → t.port q = s.port q) ∧ (∀ x, x ≠ en → t.entry x = s.entry x) ∧
          (e.mode = .live → t.port p = s.port p ∧ t.entry en = { e with state := .running }) ∧
          (e.mode = .lossless → ((s.port p).link = .active ∨ (s.port p).link = .draining) →
            .credit en ∉ (s.port p).ctrlQ → (s.port p).ctrlQ.length < 16 →
            t.port p = { s.port p with ctrlQ := (s.port p).ctrlQ ++ [.credit en] } ∧
            t.entry en = { e with state := .running, owedCredit := false }))) ∧
    (e.state = .stalled → ∃ t, exec (.strmStart en.val) s = .next t ∧ (t.entry en).state = .running ∧
      (t.entry en).discOwed = true ∧ (t.entry en).holdCount = 0 ∧ (t.entry en).ring = e.ring ∧
      (∀ x, x ≠ en → t.entry x = s.entry x) ∧ t.mgmt.answer = some { status := .ok, body := [] } ∧
      (canStore .streamResumed s →
        t.mgmt.notices = s.mgmt.notices ++ [noticeNow .streamResumed e.rackId 0 e.ring.length s]))

/-- `strm.stop` from RUNNING or STALLED and `strm.close` from READY, RUNNING or STALLED: the open block closes, hold is
released, advertising ends, the blocks pending stay; an empty ring closes at once with DRAINED, and otherwise the entry is in
CLOSING with its drain count at 0. At a boundary the open block ages, and closes short at the age limit; hold is counted, and at
the hold limit the entry stalls; and the drain of CLOSING is counted, and at its limit the ring is flushed. That a QUERY waiting
for the entry is withdrawn at a stop and at CLOSED is the model's choice (R106, R132 to R134, R136, R138, R140, R141; log
36). -/
def Obligations.StrmStopAndClose : Prop :=
  (∀ (en : EntryId) (s : State), s.inReset = false →
    let e := s.entry en
    let stays := fun t : State => ∀ b ∈ e.ring, b.isOpen = false → (b.pendPorts ≠ 0 ∨ b.pendSlots ≠ 0) →
      b ∈ (t.entry en).ring
    (e.state = .closed → exec (.strmStop en.val) s = .next (answered .noEntry [] s) ∧
      exec (.strmClose en.val) s = .next (answered .noEntry [] s)) ∧
    ((e.state = .ready ∨ e.state = .closing) → exec (.strmStop en.val) s = .next (answered .state [] s)) ∧
    (e.state = .closing → exec (.strmClose en.val) s = .next (answered .ok [] s)) ∧
    ((e.state = .running ∨ e.state = .stalled) → ∃ t, exec (.strmStop en.val) s = .next t ∧
      (t.entry en).state = .ready ∧ hasOpen (t.entry en) = false ∧ (t.entry en).hold = false ∧
      (t.entry en).holdCount = 0 ∧ (t.entry en).owedCredit = false ∧ stays t ∧ t.buffer = s.buffer ∧
      (∀ p, .credit en ∉ (t.port p).ctrlQ ∧ .query en ∉ (t.port p).ctrlQ) ∧
      (∀ x, x ≠ en → t.entry x = s.entry x) ∧ t.mgmt.answer = some { status := .ok, body := [] }) ∧
    ((e.state = .ready ∨ e.state = .running ∨ e.state = .stalled) → ∃ t, exec (.strmClose en.val) s = .next t ∧
      hasOpen (t.entry en) = false ∧ (t.entry en).hold = false ∧ (t.entry en).owedCredit = false ∧
      (∀ p, .credit en ∉ (t.port p).ctrlQ) ∧ (∀ x, x ≠ en → t.entry x = s.entry x) ∧
      t.mgmt.answer = some { status := .ok, body := [] } ∧
      ((t.entry en).ring ≠ [] → (t.entry en).state = .closing ∧ (t.entry en).drainCount = 0 ∧ stays t) ∧
      ((t.entry en).ring = [] → (t.entry en).state = .closed ∧ (t.entry en).destPorts = 0 ∧
        (t.entry en).destSlots = 0 ∧ (∀ p, .query en ∉ (t.port p).ctrlQ)) ∧
      (e.ring = [] → (t.entry en).ring = []) ∧
      (e.ring = [] → canStore .streamClosed s →
        t.mgmt.notices = s.mgmt.notices ++ [noticeNow .streamClosed e.rackId 0 0 s]))) ∧
  ∀ (en : EntryId) (s : State), s.inReset = false →
    let e := s.entry en
    (e.state = .running → isOrigin e = true → e.mode = .live → e.hold = false → e.outside = none →
      ∃ t, exec .epochBoundary s = .next t ∧
        ((∀ b ∈ e.ring, b.isOpen = true → b.age + 1 < e.ageLimit) → t.entry en = { e with
          awaitBoundary := false, ring := e.ring.map fun b => if b.isOpen then { b with age := b.age + 1 } else b }) ∧
        ∀ b ∈ e.ring, b.isOpen = true → e.ageLimit ≤ b.age + 1 → hasOpen (t.entry en) = false ∧
          ((b.routePorts ≠ 0 ∨ b.routeSlots ≠ 0) →
            { b with
              age := b.age + 1, isOpen := false, short := decide (b.len < e.payload), pendPorts := b.routePorts
              pendSlots := b.routeSlots } ∈ (t.entry en).ring)) ∧
    (e.state = .running → isOrigin e = true → e.mode = .lossless → e.hold = true → hasOpen e = false →
      e.holdLimit ≤ 255 → s.xmit.creditTimeout = 0 → ∃ t, exec .epochBoundary s = .next t ∧
        (e.holdCount + 1 < e.holdLimit → t.entry en = { e with
          holdCount := e.holdCount + 1, awaitBoundary := false, credit := (t.entry en).credit }) ∧
        (e.holdLimit ≤ e.holdCount + 1 → t.entry en = { e with
          state := .stalled, hold := false, holdCount := 0, awaitBoundary := false, credit := (t.entry en).credit })) ∧
    (e.state = .closing → hasOpen e = false → e.hold = false → (e.mode = .live ∨ s.xmit.creditTimeout = 0) →
      let d := if e.drainCount < 255 then e.drainCount + 1 else e.drainCount
      ∃ t, exec .epochBoundary s = .next t ∧
        ((d < e.drainLimit ∨ e.ring = []) → (t.entry en).state = .closing ∧ (t.entry en).drainCount = d ∧
          (t.entry en).ring = e.ring ∧ (t.entry en).counters = e.counters) ∧
        (e.drainLimit ≤ d → e.ring ≠ [] → (t.entry en).state = .closed ∧ (t.entry en).ring = [] ∧
          (t.entry en).destPorts = 0 ∧ (t.entry en).destSlots = 0 ∧ (t.entry en).counters = { e.counters with
            flushed := e.counters.flushed + BitVec.ofNat 32 e.ring.length }))

/-- `strm.window` stages a window, or removes the staged one when it equals the window in force, by the checks of R149 in
their order. `strm.dest` applies its removals and its additions; a removed destination keeps no mark and no QUERY, and an
added port is abandoned no more. A body of another length is refused with BAD_VALUE, after NO_ENTRY and STATE. That an added
slot's divider is the one the next boundary leaves in force is the model's choice (R149, R151, R197, R209; log 21). -/
def Obligations.StrmWindowAndDest : Prop :=
  (∀ pins (b : Byte) (body : List Byte) (s : State), s.inReset = false → body.length ≠ 4 →
    ∃ c d, requestOf pins 0x54 (b :: body) = .ok c ∧ requestOf pins 0x55 (b :: body) = .ok d ∧
      ∀ en : EntryId, b.toNat = en.val →
        let st : Status := if (s.entry en).state = .closed then .noEntry
          else if (s.entry en).state = .closing then .state else .badValue
        exec c s = .next (answered st [] s) ∧ exec d s = .next (answered st [] s)) ∧
  (∀ (en : EntryId) (base len : Nat) (s : State), s.inReset = false →
    let e := s.entry en
    let apart := fun b l : Nat => base + len ≤ b ∨ b + l ≤ base
    let clear := ∀ x, x ≠ en → (s.entry x).state ≠ .closed → apart (s.entry x).base (s.entry x).len ∧
      ∀ w, (s.entry x).stagedWin = some w → apart w.1 w.2
    let fits := 2 ≤ len ∧ len ≤ 1024 ∧ base + len ≤ 4096
    let sets := fun (st : Status) (w : Option (Nat × Nat)) => ∃ t, exec (.strmWindow en.val base len) s = .next t ∧
      t = { answered st [] s with entries := t.entries } ∧ (∀ x, x ≠ en → t.entry x = s.entry x) ∧
      t.entry en = { e with stagedWin := w }
    (e.state = .closed → exec (.strmWindow en.val base len) s = .next (answered .noEntry [] s)) ∧
    (e.state = .closing → exec (.strmWindow en.val base len) s = .next (answered .state [] s)) ∧
    (e.state ≠ .closed → e.state ≠ .closing →
      (¬fits → exec (.strmWindow en.val base len) s = .next (answered .badValue [] s)) ∧
      (fits → ¬clear → exec (.strmWindow en.val base len) s = .next (answered .overlap [] s)) ∧
      (fits → clear → base = e.base → len = e.len → sets .ok none) ∧
      (fits → clear → (base ≠ e.base ∨ len ≠ e.len) → sets .staged (some (base, len))))) ∧
  ∀ (en : EntryId) (r : StrmDestReq) (s : State), s.inReset = false → r.entry = en.val →
    let e := s.entry en
    let next := fun k : SlotId => ((s.slot k).stagedClk.map (·.1)).getD (s.slot k).divider
    let clash := r.addPorts &&& r.removePorts ≠ 0 ∨ r.addSlots &&& r.removeSlots ≠ 0 ∨
      (∃ p : PortId, e.source = .port p ∧ (r.addPorts ||| r.removePorts).getLsbD p.val = true) ∨
      ∃ k : SlotId, e.source = .slot k ∧ (r.addSlots ||| r.removeSlots).getLsbD k.val = true
    let bad := 16 ≤ r.addPorts.toNat ∨ 16 ≤ r.removePorts.toNat ∨ clash
    let taken := ∃ x, x ≠ en ∧ (s.entry x).state ≠ .closed ∧ (s.entry x).destSlots &&& r.addSlots ≠ 0
    let unlike := (e.state = .running ∨ e.state = .stalled) ∧
      ∃ k : SlotId, r.addSlots.getLsbD k.val = true ∧ next k ≠ e.interval
    (e.state = .closed → exec (.strmDest r) s = .next (answered .noEntry [] s)) ∧
    (e.state = .closing → exec (.strmDest r) s = .next (answered .state [] s)) ∧
    (e.state ≠ .closed → e.state ≠ .closing →
      (bad → exec (.strmDest r) s = .next (answered .badValue [] s)) ∧
      (¬bad → taken → exec (.strmDest r) s = .next (answered .slotBusy [] s)) ∧
      (¬bad → ¬taken → unlike → exec (.strmDest r) s = .next (answered .divider [] s)) ∧
      (¬bad → ¬taken → ¬unlike → ∃ t, exec (.strmDest r) s = .next t ∧
        t.mgmt.answer = some { status := .ok, body := [] } ∧ t.buffer = s.buffer ∧
        (∀ x, x ≠ en → t.entry x = s.entry x) ∧
        (∀ p : PortId, (t.entry en).destPorts.getLsbD p.val =
          (r.addPorts.getLsbD p.val || (e.destPorts.getLsbD p.val && !r.removePorts.getLsbD p.val))) ∧
        (∀ k : SlotId, (t.entry en).destSlots.getLsbD k.val =
          (r.addSlots.getLsbD k.val || (e.destSlots.getLsbD k.val && !r.removeSlots.getLsbD k.val))) ∧
        (∀ p : PortId, r.addPorts.getLsbD p.val = true → (t.entry en).abandonedPorts.getLsbD p.val = false) ∧
        (∀ p : PortId, r.removePorts.getLsbD p.val = true → e.destPorts.getLsbD p.val = true →
          .query en ∉ (t.port p).ctrlQ ∧ (t.entry en).credit[p] = { limit := none, timeouts := 0, queries := 0 } ∧
          ∀ b ∈ (t.entry en).ring, b.pendPorts.getLsbD p.val = false) ∧
        (∀ k : SlotId, r.removeSlots.getLsbD k.val = true → e.destSlots.getLsbD k.val = true →
          (t.slot k).presenting = none ∧ ∀ b ∈ (t.entry en).ring, b.pendSlots.getLsbD k.val = false)))

/-- What `applyWindow` does: a staged window whose length holds the blocks comes into force, the blocks keep their order and
fields, the i-th moves to the i-th slot of the new window with its contents, and the write position follows the newest block; one
that is too short stays staged. A SAMPLE accepted by an entry with a staged window wraps when no slot from the write position up
to the last but one is free: then, and only then, the staged window is applied, with the new block among the blocks held, if its
length holds them; else it stays staged (R126, R144, R150). -/
def Obligations.WindowAppliesAtWrap : Prop :=
  (∀ (en : EntryId) (base len : Nat) (s : State), bufferCanonical s → (s.entry en).stagedWin = some (base, len) →
    ((s.entry en).ring.length ≤ len → base + len ≤ 4096 → (∀ b ∈ (s.entry en).ring, b.len ≤ 512) →
      let t := applyWindow en s
      t = { s with
        entries := t.entries, buffer := t.buffer
        mgmt := { s.mgmt with
          notices := t.mgmt.notices, lostFlag := t.mgmt.lostFlag, lostCount := t.mgmt.lostCount } } ∧
      (∀ x, x ≠ en → t.entry x = s.entry x) ∧
      t.entry en = { s.entry en with
        base := base, len := len, stagedWin := none, ring := (t.entry en).ring
        writePos := if (s.entry en).ring.length < len then base + (s.entry en).ring.length else base } ∧
      (t.entry en).ring.length = (s.entry en).ring.length ∧
      (∀ i b, (s.entry en).ring[i]? = some b →
        (t.entry en).ring[i]? = some { b with slot := base + i } ∧
        Memory.readBytes t.buffer ((base + i) * 512) b.len = Memory.readBytes s.buffer (b.slot * 512) b.len) ∧
      (∀ a, (∀ i b, (s.entry en).ring[i]? = some b → a < (base + i) * 512 ∨ (base + i) * 512 + b.len ≤ a) →
        Memory.read t.buffer a = Memory.read s.buffer a) ∧
      (canStore .windowApplied s → t.mgmt.notices =
        s.mgmt.notices ++ [noticeNow .windowApplied (s.entry en).rackId base len s])) ∧
    (len < (s.entry en).ring.length → applyWindow en s = s)) ∧
  ∀ (p : PortId) (c : SampleCell) (en : EntryId) (base len : Nat) (s : State), s.inReset = false →
    ((s.port p).link = .active ∨ (s.port p).link = .draining) → entryOfRack s c.rackId = some en →
    let e := s.entry en
    e.source = .port p → e.state = .running → e.stagedWin = some (base, len) → c.payload.length ≤ e.payload →
    c.payload.length % e.width = 0 → e.payload ≤ 512 → (c.seq - e.nextExp).toNat < 2 ^ 15 →
    (e.ring.length < e.len ∨ (e.mode = .live ∧ e.ring.length = e.len ∧ 0 < e.len)) →
    (takerPorts s e ≠ 0 ∨ takerSlots s e ≠ 0) → e.base ≤ e.writePos → e.writePos < e.base + e.len →
    e.base + e.len ≤ 4096 → base + len ≤ 4096 → bufferCanonical s →
    (∀ b ∈ e.ring, b.len ≤ 512 ∧ e.base ≤ b.slot ∧ b.slot < e.base + e.len) → (e.ring.map (·.slot)).Nodup →
    let kept := if e.ring.length < e.len then e.ring else e.ring.tail
    let wraps := ∀ i, e.writePos ≤ i → i + 1 < e.base + e.len → ∃ b ∈ kept, b.slot = i
    ∃ t, exec (.sampleReceived ⟨p, true⟩ c) s = .next t ∧
      let f := t.entry en
      f.ring.map (·.seq) = kept.map (·.seq) ++ [c.seq] ∧
      ((¬wraps ∨ len ≤ kept.length) → f.stagedWin = some (base, len) ∧ f.base = e.base ∧ f.len = e.len ∧
        ∃ b, f.ring = kept ++ [b] ∧ e.base ≤ b.slot ∧ b.slot < e.base + e.len ∧ (∀ x ∈ kept, x.slot ≠ b.slot)) ∧
      (wraps → kept.length < len → f.stagedWin = none ∧ f.base = base ∧ f.len = len ∧
        f.writePos = (if kept.length + 1 < len then base + kept.length + 1 else base) ∧
        (∀ (i : Nat) (b : Block), kept[i]? = some b → f.ring[i]? = some { b with slot := base + i } ∧
          Memory.readBytes t.buffer ((base + i) * 512) b.len = Memory.readBytes s.buffer (b.slot * 512) b.len) ∧
        (∃ b, f.ring[kept.length]? = some b ∧ b.slot = base + kept.length) ∧
        Memory.readBytes t.buffer ((base + kept.length) * 512) c.payload.length = c.payload ∧
        (canStore .windowApplied s → t.mgmt.notices =
          s.mgmt.notices ++ [noticeNow .windowApplied e.rackId base len s]))

/-- A SAMPLE received for no entry, from another port than the entry's source, or that does not fit it counts as unknown
stream; one behind, or in READY, as duplicate; one without room at a LOSSLESS entry as over limit; none of these changes
anything else. Any other is accepted: created and the next expected sequence move, the gap is counted, and the block joins
the ring, with its payload in its slot and every other byte as before, or is unrouted. That an over-limit discard leaves the
gap count, and that a LIVE entry skips before the new block's fate is known, is the model's choice (R121, R143, R144, R152;
log 19, log 20). -/
def Obligations.SamplesReceivedAreJudged : Prop :=
  ∀ (p : PortId) (c : SampleCell) (s : State), s.inReset = false →
    ((s.port p).link = .active ∨ (s.port p).link = .draining) →
    let unknown := ∃ t, exec (.sampleReceived ⟨p, true⟩ c) s = .next t ∧ t = { s with ports := t.ports } ∧
      (∀ q, q ≠ p → t.port q = s.port q) ∧ t.port p = { s.port p with unknownStream := (s.port p).unknownStream + 1 }
    (entryOfRack s c.rackId = none → unknown) ∧
    ∀ en, entryOfRack s c.rackId = some en →
      let e := s.entry en
      let counts := fun n : StreamCounters => ∃ t, exec (.sampleReceived ⟨p, true⟩ c) s = .next t ∧
        t = { s with entries := t.entries } ∧ (∀ x, x ≠ en → t.entry x = s.entry x) ∧
        t.entry en = { e with counters := n }
      (e.source ≠ .port p → unknown) ∧
      (e.source = .port p →
        (e.state = .ready → counts { e.counters with duplicates := e.counters.duplicates + 1 }) ∧
        (e.state = .closing → exec (.sampleReceived ⟨p, true⟩ c) s = .next s) ∧
        (e.state = .running → (e.payload < c.payload.length ∨ c.payload.length % e.width ≠ 0) → unknown) ∧
        (e.state = .running → c.payload.length ≤ e.payload → c.payload.length % e.width = 0 →
          (2 ^ 15 ≤ (c.seq - e.nextExp).toNat → counts { e.counters with duplicates := e.counters.duplicates + 1 }) ∧
          ((c.seq - e.nextExp).toNat < 2 ^ 15 →
            (e.mode = .lossless → e.len ≤ e.ring.length →
              counts { e.counters with overLimit := e.counters.overLimit + 1 }) ∧
            ((e.ring.length < e.len ∨ (e.mode = .live ∧ e.ring.length = e.len ∧ 0 < e.len)) →
              ∃ t, exec (.sampleReceived ⟨p, true⟩ c) s = .next t ∧ (∀ x, x ≠ en → t.entry x = s.entry x) ∧
                let f := t.entry en
                let kept := if e.ring.length < e.len then e.ring else e.ring.tail
                f.nextExp = c.seq + 1 ∧ f.counters.created = e.counters.created + 1 ∧
                f.counters.gaps = e.counters.gaps + BitVec.ofNat 32 (c.seq - e.nextExp).toNat ∧
                f.counters.skipped = e.counters.skipped + (if e.ring.length < e.len then 0 else 1) ∧
                (takerPorts s e = 0 → takerSlots s e = 0 → f.ring = kept ∧ t.buffer = s.buffer ∧
                  f.counters.unrouted = e.counters.unrouted + 1) ∧
                ((takerPorts s e ≠ 0 ∨ takerSlots s e ≠ 0) →
                  f.ring.map (·.seq) = kept.map (·.seq) ++ [c.seq] ∧ f.counters.unrouted = e.counters.unrouted ∧
                  (e.stagedWin = none → bufferCanonical s → e.payload ≤ 512 → e.base + e.len ≤ 4096 →
                    ∃ b, f.ring = kept ++ [b] ∧ b.stamp = c.stamp ∧ b.trusted = c.trusted ∧ b.disc = c.disc ∧
                      b.short = c.short ∧ b.mark = c.mark ∧ b.extraMarks = c.extraMarks ∧
                      b.len = c.payload.length ∧ b.isOpen = false ∧ b.pendPorts = takerPorts s e ∧
                      b.pendSlots = takerSlots s e ∧ e.base ≤ b.slot ∧ b.slot < e.base + e.len ∧
                      (∀ x ∈ kept, x.slot ≠ b.slot) ∧
                      Memory.readBytes t.buffer (b.slot * 512) b.len = c.payload ∧
                      ∀ a, (a < b.slot * 512 ∨ b.slot * 512 + b.len ≤ a) →
                        Memory.read t.buffer a = Memory.read s.buffer a))))))

/-- A sample instant at the source slot of an origin entry: a valid sample is written at the next sample position of the open
block, which closes when that fills it, or opens a block with the instant's stamp, a LIVE entry skipping its oldest block when
the ring is full; an invalid one closes the open block, short unless full, with its route as its pending set; in STALLED a valid
sample is an overrun; under hold the instant is only counted. A slot that is source and sink takes its sample first and then
presents one (log 42). That instants before the first boundary of a start raise only the instant count is log 22; both are the
model's choice. The block that opens takes the oldest trigger id that waits as its mark, at offset 0, and counts the others
(R131, R135 to R137, R143, R147, R158, R161, R163, R182; log 22, log 42). -/
def Obligations.SourceInstantsTakeSamples : Prop :=
  (∀ (k : SlotId) (d : BitVec 32) (en : EntryId) (s : State), s.inReset = false →
    (s.slot k).presence = .present → (s.slot k).divider ≠ 0 → sourceEntry s k = some en → sinkEntry s k = none →
    let e := s.entry en
    let ticks := fun (t : State) (f : SlotCounters → SlotCounters) =>
      t.slot k = { s.slot k with
        sclkEdge := true
        counters := f { (s.slot k).counters with instants := (s.slot k).counters.instants + 1 } }
    let valid := fun c : SlotCounters => { c with validReads := c.validReads + 1 }
    let others := fun t : State => (∀ x, x ≠ en → t.entry x = s.entry x) ∧ (∀ j, j ≠ k → t.slot j = s.slot j)
    (e.state = .running → e.awaitBoundary = false → e.hold = false → e.outside = none →
      (∀ b, e.ring.find? (·.isOpen) = some b → b.len + e.width < e.payload → e.payload ≤ 512 → b.slot < 4096 →
        bufferCanonical s → ∃ t, exec (.sampleInstant k true d) s = .next t ∧ others t ∧ ticks t valid ∧
          t.entry en = { e with ring := e.ring.map fun c =>
            if c.isOpen then { c with len := c.len + e.width } else c } ∧
          Memory.readBytes t.buffer (b.slot * 512 + b.len) e.width = beBytes e.width d.toNat ∧
          ∀ a, (a < b.slot * 512 + b.len ∨ b.slot * 512 + b.len + e.width ≤ a) →
            Memory.read t.buffer a = Memory.read s.buffer a) ∧
      (∀ b, e.ring.find? (·.isOpen) = some b → b.len + e.width = e.payload → e.payload ≤ 512 → b.slot < 4096 →
        bufferCanonical s → ∃ t, exec (.sampleInstant k true d) s = .next t ∧ hasOpen (t.entry en) = false ∧
          (∀ x, x ≠ en → t.entry x = s.entry x) ∧
          (t.slot k).counters.validReads = (s.slot k).counters.validReads + 1 ∧
          ((b.routePorts ≠ 0 ∨ b.routeSlots ≠ 0) →
            { b with
              len := e.payload, isOpen := false, short := false, pendPorts := b.routePorts
              pendSlots := b.routeSlots } ∈ (t.entry en).ring) ∧
          Memory.readBytes t.buffer (b.slot * 512 + b.len) e.width = beBytes e.width d.toNat ∧
          ∀ a, (a < b.slot * 512 + b.len ∨ b.slot * 512 + b.len + e.width ≤ a) →
            Memory.read t.buffer a = Memory.read s.buffer a) ∧
      (∀ o rest, hasOpen e = false → e.mode = .live → e.ring = o :: rest → e.ring.length = e.len → e.stagedWin = none →
        e.width < e.payload → e.payload ≤ 512 → e.base + e.len ≤ 4096 → bufferCanonical s →
        (e.gate = false ∨ s.win.stamp.on = true) → (takerPorts s e ≠ 0 ∨ takerSlots s e ≠ 0) →
        ∃ t b, exec (.sampleInstant k true d) s = .next t ∧ (∀ x, x ≠ en → t.entry x = s.entry x) ∧
          (t.entry en).ring = rest ++ [b] ∧ b.seq = e.nextSeq ∧ b.isOpen = true ∧ b.len = e.width ∧
          b.routePorts = takerPorts s e ∧ b.routeSlots = takerSlots s e ∧ b.disc = e.discOwed ∧
          (t.entry en).counters = { e.counters with
            created := e.counters.created + 1, skipped := e.counters.skipped + 1 } ∧
          (∀ j n, e.destSlots.getLsbD j.val = true → (s.slot j).presenting = some (o.seq, n) →
            (t.slot j).presenting = none) ∧
          Memory.readBytes t.buffer (b.slot * 512) e.width = beBytes e.width d.toNat) ∧
      (hasOpen e = false → e.ring.length < e.len → e.stagedWin = none → e.width < e.payload → e.payload ≤ 512 →
        e.base + e.len ≤ 4096 → bufferCanonical s →
        (e.gate = true → s.win.stamp.on = false → ∃ t, exec (.sampleInstant k true d) s = .next t ∧ others t ∧
          (t.entry en).ring = e.ring ∧ (t.entry en).discOwed = e.discOwed ∧ t.buffer = s.buffer ∧
          (t.entry en).nextSeq = e.nextSeq + 1 ∧ hasOpen (t.entry en) = true ∧
          (t.entry en).counters = { e.counters with
            created := e.counters.created + 1, gated := e.counters.gated + 1 }) ∧
        ((e.gate = false ∨ s.win.stamp.on = true) → takerPorts s e = 0 → takerSlots s e = 0 →
          ∃ t, exec (.sampleInstant k true d) s = .next t ∧ others t ∧ (t.entry en).ring = e.ring ∧
            (t.entry en).discOwed = e.discOwed ∧ t.buffer = s.buffer ∧ hasOpen (t.entry en) = true ∧
            (t.entry en).counters = { e.counters with
              created := e.counters.created + 1, unrouted := e.counters.unrouted + 1 }) ∧
        ((e.gate = false ∨ s.win.stamp.on = true) → (takerPorts s e ≠ 0 ∨ takerSlots s e ≠ 0) →
          ∃ t b, exec (.sampleInstant k true d) s = .next t ∧ others t ∧ ticks t valid ∧
            (t.entry en).ring = e.ring ++ [b] ∧ b.seq = e.nextSeq ∧ (t.entry en).nextSeq = e.nextSeq + 1 ∧
            (∀ x, gridPassed s.tb.advFrom (wholeTicks s.tb.reading) (s.slot k).divider (s.slot k).phase = some x →
              b.stamp = x) ∧
            b.trusted = s.win.stamp.on ∧ b.disc = e.discOwed ∧ (t.entry en).discOwed = false ∧ b.len = e.width ∧
            b.isOpen = true ∧ b.routePorts = takerPorts s e ∧ b.routeSlots = takerSlots s e ∧ b.pendPorts = 0 ∧
            b.pendSlots = 0 ∧ (t.entry en).waiting = [] ∧
            b.mark = e.waiting.head?.map (fun i => (i, 0)) ∧ b.extraMarks = min 255 (e.waiting.length - 1) ∧
            (t.entry en).counters = { e.counters with created := e.counters.created + 1 } ∧
            Memory.readBytes t.buffer (b.slot * 512) e.width = beBytes e.width d.toNat ∧
            ∀ a, (a < b.slot * 512 ∨ b.slot * 512 + e.width ≤ a) →
              Memory.read t.buffer a = Memory.read s.buffer a)) ∧
      ∃ t, exec (.sampleInstant k false d) s = .next t ∧ t.buffer = s.buffer ∧ hasOpen (t.entry en) = false ∧
        (hasOpen e = false → t.entry en = { e with hold := (t.entry en).hold }) ∧
        (∀ b ∈ e.ring, b.isOpen = true → (b.routePorts ≠ 0 ∨ b.routeSlots ≠ 0) →
          { b with
            isOpen := false, short := decide (b.len < e.payload), pendPorts := b.routePorts
            pendSlots := b.routeSlots } ∈ (t.entry en).ring)) ∧
    (e.state = .stalled → e.awaitBoundary = false → e.hold = false → ∃ t, exec (.sampleInstant k true d) s = .next t ∧
      others t ∧ ticks t valid ∧ t.buffer = s.buffer ∧
      t.entry en = { e with counters := { e.counters with overrun := e.counters.overrun + 1 } }) ∧
    ((e.state = .running ∨ e.state = .stalled) → e.awaitBoundary = false → e.hold = true → ∀ v, ∃ t,
      exec (.sampleInstant k v d) s = .next t ∧ t.entries = s.entries ∧ t.buffer = s.buffer ∧
      ticks t fun c => { c with heldInstants := c.heldInstants + 1 }) ∧
    ((e.state = .ready ∨ e.state = .closing ∨ ((e.state = .running ∨ e.state = .stalled) ∧ e.awaitBoundary = true)) →
      ∀ v, ∃ t, exec (.sampleInstant k v d) s = .next t ∧ t.entries = s.entries ∧ t.buffer = s.buffer ∧ ticks t id)) ∧
  ∀ (k : SlotId) (d : BitVec 32) (en sn : EntryId) (b c : Block) (n : Nat) (s : State), s.inReset = false →
    (s.slot k).presence = .present → (s.slot k).divider ≠ 0 → sourceEntry s k = some en → sinkEntry s k = some sn →
    sn ≠ en →
    let e := s.entry en
    let f := s.entry sn
    e.state = .running → e.awaitBoundary = false → e.hold = false → e.outside = none →
    e.ring.find? (·.isOpen) = some b → b.len + e.width < e.payload → e.payload ≤ 512 → b.slot < 4096 →
    bufferCanonical s → f.state = .running → (s.slot k).presenting = some (c.seq, n) →
    f.ring.find? (fun x => x.seq == c.seq) = some c → (n + 1) * f.width < c.len → c.len ≤ 512 → c.slot ≠ b.slot →
    ∃ t, exec (.sampleInstant k true d) s = .next t ∧ (∀ x, x ≠ en → t.entry x = s.entry x) ∧
      t.entry en = { e with ring := e.ring.map fun x => if x.isOpen then { x with len := x.len + e.width } else x } ∧
      Memory.readBytes t.buffer (b.slot * 512 + b.len) e.width = beBytes e.width d.toNat ∧
      (∀ j, j ≠ k → t.slot j = s.slot j) ∧ t.slot k = { s.slot k with
        sclkEdge := true, playingFlag := true, underrun := false, presenting := some (c.seq, n + 1)
        lastWidth := f.width
        lastValue := BitVec.ofNat 32 (ofBytes (Memory.readBytes s.buffer (c.slot * 512 + n * f.width) f.width))
        counters := { (s.slot k).counters with
          instants := (s.slot k).counters.instants + 1, validReads := (s.slot k).counters.validReads + 1
          samplesOut := (s.slot k).counters.samplesOut + 1 } }

/-! ### Slots (chapter 7) -/

/-- The presentation instant is the first tick of the slot's grid at or after its argument, modulo 2^56. At a sample instant
a sink slot presents the next sample of the block it has begun, and ends the block at its last sample; with none begun it
presents a head that is due, leaves one in the future, and discards a late one; and an instant with nothing presented
starts one underrun episode, by the playing flag alone (log 62, the model's choice) (R158, R162, R163, R164). -/
def Obligations.SinkInstantsPlayOut : Prop :=
  (∀ (x : Tick) (m phi : Nat), 2 ≤ m → m ≤ 65536 → phi < m →
    let y := (presentationInstant x m phi).toNat
    y % m = phi ∧ (x.toNat ≤ y → ∀ z, x.toNat ≤ z → z < y → z % m ≠ phi) ∧
      (y < x.toNat → y = phi ∧ ∀ z, x.toNat ≤ z → z < 2 ^ 56 → z % m ≠ phi)) ∧
  ∀ (k : SlotId) (en : EntryId) (v : Bool) (d : BitVec 32) (s : State), s.inReset = false →
    (s.slot k).presence = .present → (s.slot k).divider ≠ 0 → sourceEntry s k = none → sinkEntry s k = some en →
    (s.entry en).state = .running →
    let e := s.entry en
    let sample := fun (b : Block) (n : Nat) =>
      BitVec.ofNat 32 (ofBytes (Memory.readBytes s.buffer (b.slot * 512 + n * e.width) e.width))
    let presents := fun (t : State) (b : Block) (n : Nat) =>
      t.buffer = s.buffer ∧ (t.slot k).lastValue = sample b n ∧ (t.slot k).lastWidth = e.width ∧
      (t.slot k).playingFlag = true ∧ (t.slot k).underrun = false ∧
      (t.slot k).counters.samplesOut = (s.slot k).counters.samplesOut + 1 ∧
      (b.len ≤ (n + 1) * e.width → (t.slot k).presenting = none ∧
        (t.slot k).counters.blocksOut = (s.slot k).counters.blocksOut + 1 ∧
        ∀ c ∈ (t.entry en).ring, c.seq = b.seq → c.pendSlots.getLsbD k.val = false) ∧
      ((n + 1) * e.width < b.len → (t.slot k).presenting = some (b.seq, n + 1) ∧
        (t.slot k).counters.blocksOut = (s.slot k).counters.blocksOut ∧ t.entries = s.entries)
    (∀ q n b, (s.slot k).presenting = some (q, n) → e.ring.find? (fun c => c.seq == q) = some b →
      ∃ t, exec (.sampleInstant k v d) s = .next t ∧ presents t b n) ∧
    (∀ b, (s.slot k).presenting = none →
      e.ring.filter (fun c => !c.isOpen && c.pendSlots.getLsbD k.val) = [b] →
      let x := presentationInstant (b.stamp + BitVec.ofNat 56 e.latency) (s.slot k).divider (s.slot k).phase
      ∀ i, gridPassed s.tb.advFrom (wholeTicks s.tb.reading) (s.slot k).divider (s.slot k).phase = some i →
        ∃ t, exec (.sampleInstant k v d) s = .next t ∧ (t.slot k).head = some (b.seq, x) ∧
          (x = i → presents t b 0 ∧ (t.slot k).lastBegun = b.seq) ∧
          (1 ≤ (x - i).toNat → (x - i).toNat < 2 ^ 55 → t.entries = s.entries ∧
            (t.slot k).lastValue = (s.slot k).lastValue ∧ (t.slot k).presenting = none) ∧
          (2 ^ 55 ≤ (x - i).toNat → (t.slot k).lastValue = (s.slot k).lastValue ∧ (t.slot k).presenting = none ∧
            (t.entry en).counters.late[k] = e.counters.late[k] + 1 ∧
            ∀ c ∈ (t.entry en).ring, c.seq = b.seq → c.pendSlots.getLsbD k.val = false)) ∧
    ((s.slot k).presenting = none → e.ring.filter (fun c => !c.isOpen && c.pendSlots.getLsbD k.val) = [] →
      ∃ t, exec (.sampleInstant k v d) s = .next t ∧ t.entries = s.entries ∧
        (t.slot k).lastValue = (s.slot k).lastValue ∧
        (((s.slot k).playingFlag = false ∨ (s.slot k).underrun = true) → t.mgmt = s.mgmt ∧
          (t.slot k).underrun = (s.slot k).underrun) ∧
        ((s.slot k).playingFlag = true → (s.slot k).underrun = false → (t.slot k).underrun = true ∧
          (t.slot k).counters.underruns = (s.slot k).counters.underruns + 1 ∧
          (canStore .sinkUnderrun s → t.mgmt.notices = s.mgmt.notices ++
            [noticeNow .sinkUnderrun k.val e.rackId (s.slot k).lastBegun.toNat s])))

/-- Presence: a rise settles an EMPTY slot, the debounce expiry makes it PRESENT with SLOT_INSERTED, and a fall empties it, from
PRESENT with SLOT_REMOVED, what it was bound to, and no mark left for it at its sink entry; settings, clock and
counters are kept, but that the source block which closes may count one strobe pulse. `slot.cfg` stores its fields. That strobe
pulse, and that SLOT_REMOVED comes before the notices that follow, are the model's choice (R155, R156, R157, R169; log 12,
41). -/
def Obligations.SlotPresenceAndSettings : Prop :=
  ∀ (k : SlotId) (s : State), s.inReset = false →
    (∃ t, exec (.slotPresentRise k) s = .next t ∧ t = { s with slots := t.slots } ∧
      (∀ j, j ≠ k → t.slot j = s.slot j) ∧
      ((s.slot k).presence ≠ .empty → t.slot k = { s.slot k with present := true }) ∧
      ((s.slot k).presence = .empty → t.slot k = { s.slot k with
        present := true, presence := .settling, debounce := some ((s.slot k).cfg.debounce * 125000) })) ∧
    ((s.slot k).presence = .settling → canStore .slotInserted s → ∃ t, exec (.slotDebounceExpiry k) s = .next t ∧
      t.slot k = { s.slot k with presence := .present, debounce := none } ∧ (∀ j, j ≠ k → t.slot j = s.slot j) ∧
      t = { s with
        slots := t.slots
        mgmt := { s.mgmt with notices := s.mgmt.notices ++ [noticeNow .slotInserted k.val 0 0 s] } }) ∧
    ((s.slot k).presence ≠ .settling → exec (.slotDebounceExpiry k) s = .next s) ∧
    ((s.slot k).presence ≠ .present → ∃ t, exec (.slotPresentFall k) s = .next t ∧ t = { s with slots := t.slots } ∧
      (∀ j, j ≠ k → t.slot j = s.slot j) ∧
      t.slot k = { s.slot k with
        presence := .empty, present := false
        debounce := if (s.slot k).presence = .settling then none else (s.slot k).debounce }) ∧
    ((s.slot k).presence = .present → ∃ t, exec (.slotPresentFall k) s = .next t ∧ t.buffer = s.buffer ∧
      (∀ j, j ≠ k → (t.slot j).presence = (s.slot j).presence) ∧
      (t.slot k).presence = .empty ∧ (t.slot k).present = false ∧ (t.slot k).presenting = none ∧
      (t.slot k).playingFlag = false ∧ (t.slot k).underrun = false ∧ (t.slot k).head = none ∧
      (t.slot k).sclkEdge = false ∧ (t.slot k).trigPulse = false ∧ (t.slot k).strobePulse = false ∧
      (t.slot k).lastValue = (s.slot k).lastValue ∧ (t.slot k).cfg = (s.slot k).cfg ∧
      (t.slot k).divider = (s.slot k).divider ∧ (t.slot k).phase = (s.slot k).phase ∧
      (t.slot k).stagedClk = (s.slot k).stagedClk ∧
      (∃ n, (n = 0 ∨ n = 1) ∧ (t.slot k).counters =
        { (s.slot k).counters with strobePulses := (s.slot k).counters.strobePulses + n }) ∧
      State.holdLine t k = false ∧ State.timingGood t k = false ∧
      (∀ en, sinkEntry s k = some en → ∀ b ∈ (t.entry en).ring, b.pendSlots.getLsbD k.val = false) ∧
      (∀ en, sourceEntry s k = some en → sinkEntry s k = none →
        ((s.entry en).state = .running ∨ (s.entry en).state = .stalled) →
        (t.entry en).state = .ready ∧ hasOpen (t.entry en) = false ∧ (t.entry en).hold = false) ∧
      (canStore .slotRemoved s → ∃ rest, t.mgmt.notices = s.mgmt.notices ++ noticeNow .slotRemoved k.val
        ((if (sourceEntry s k).isSome then 1 else 0) + (if (sinkEntry s k).isSome then 2 else 0)) 0 s :: rest)) ∧
    ∀ (n m : Nat) (sub : BitVec 8), n ≤ 255 →
      (∀ mode : StrobeMode, m = mode.code → ∃ t,
        exec (.slotCfg { slot := k.val, debounce := some n, strobe := some m, subscription := some sub }) s = .next t ∧
        t.slot k = { s.slot k with cfg := { debounce := max 1 n, strobe := mode, subscription := sub } } ∧
        (∀ j, j ≠ k → t.slot j = s.slot j) ∧ t = { answered .ok [] s with slots := t.slots }) ∧
      (2 < m → exec (.slotCfg { slot := k.val, debounce := some n, strobe := some m, subscription := some sub }) s =
        .next (answered .badValue [] s))

/-- `slot.clk` with a divider and a phase: the checks of R159 in their order, and the staged clock; a clock equal to the one in
force removes the staged one. A boundary applies a staged clock that divides the E in force there, and drops any other; and it
pulses the strobe of every PRESENT slot whose mode is not OFF, once for all the events of its tick (R159, R160, R166). -/
def Obligations.SlotClockIsStaged : Prop :=
  (∀ (k : SlotId) (div phi : Nat) (s : State), s.inReset = false →
    let q := s.slot k
    let req := Instr.slotClk { slot := k.val, divider := some div, phase := some phi }
    let range := (div = 0 ∧ phi = 0) ∨ (2 ≤ div ∧ div ≤ 65536 ∧ phi < div)
    let bound := ∃ en, ((s.entry en).source = .slot k ∨ (s.entry en).destSlots.getLsbD k.val = true) ∧
      ((s.entry en).state = .running ∨ (s.entry en).state = .stalled ∨ (s.entry en).state = .closing)
    let changes := div ≠ (q.stagedClk.map (·.1)).getD q.divider
    let divides := div = 0 ∨ (s.tb.epochStaged.getD s.tb.epoch) % div = 0
    let sets := fun (st : Status) (c : Option (Nat × Nat)) => ∃ t, exec req s = .next t ∧
      t = { answered st [] s with slots := t.slots } ∧ (∀ j, j ≠ k → t.slot j = s.slot j) ∧
      t.slot k = { q with stagedClk := c }
    (¬range → exec req s = .next (answered .badValue [] s)) ∧
    (range → changes → bound → exec req s = .next (answered .state [] s)) ∧
    (range → (changes → ¬bound) → ¬divides → exec req s = .next (answered .divider [] s)) ∧
    (range → (changes → ¬bound) → divides → div = q.divider → phi = q.phase → sets .ok none) ∧
    (range → (changes → ¬bound) → divides → (div ≠ q.divider ∨ phi ≠ q.phase) → sets .staged (some (div, phi)))) ∧
  (∀ (s : State), s.inReset = false → ∃ t, exec .epochBoundary s = .next t ∧ ∀ k : SlotId,
    (t.slot k).stagedClk = none ∧
    ((s.slot k).stagedClk = none → (t.slot k).divider = (s.slot k).divider ∧ (t.slot k).phase = (s.slot k).phase) ∧
    ∀ div phi, (s.slot k).stagedClk = some (div, phi) →
      let e := s.tb.epochStaged.getD s.tb.epoch
      ((div = 0 ∨ e % div = 0) → (t.slot k).divider = div ∧ (t.slot k).phase = phi) ∧
      (div ≠ 0 → e % div ≠ 0 → (t.slot k).divider = (s.slot k).divider ∧ (t.slot k).phase = (s.slot k).phase)) ∧
  ∀ s : State, s.inReset = false → ∃ t, exec .epochBoundary s = .next t ∧ ∀ k : SlotId,
    let pulses := (s.slot k).presence = .present ∧ (s.slot k).cfg.strobe ≠ .off
    (pulses → (t.slot k).strobePulse = true ∧ (t.slot k).counters.strobePulses =
      (s.slot k).counters.strobePulses + (if (s.slot k).strobePulse then 0 else 1)) ∧
    (¬pulses → (t.slot k).strobePulse = (s.slot k).strobePulse ∧
      (t.slot k).counters.strobePulses = (s.slot k).counters.strobePulses)

/-! ### Triggers (chapter 8) -/

/-- `trg.sched` and a TRIGGER received are taken by the order of R176: a held id is a duplicate; a stale fire time leaves a
STALE record; one within the late window fires at once; an ahead one is refused by a full queue and otherwise queued at its
place. One queued or fired at once is flooded: the ACTIVE ports but the arrival port are its forwards while its hop limit is
above 0, and each of them gets the cell with the hop limit less 1 in its control queue, or is owed it. Each `trg.sched` past its
checks uses an id. `trg.cfg` stores its fields. That the queue is in the signed order of the distances, so that a trigger
already passed stands first, that a `trg.cfg` with neither field is answered OK and changes nothing, and that a cell is queued
beside one which a dropped record of its id has left waiting, is the model's choice (R172 to R179, R183, R188, R209; log 56, 58,
65). -/
def Obligations.TriggersAreTaken : Prop :=
  (∀ (a b : Nat) (s : State), s.inReset = false →
    (a ≤ 65535 → b ≤ 31 → exec (.trgCfg (some a) (some b)) s =
      .next (answered .ok [] { s with trg := { s.trg with lateWindow := a, defaultHop := b } })) ∧
    ((65535 < a ∨ 31 < b) → exec (.trgCfg (some a) (some b)) s = .next (answered .badValue [] s)) ∧
    exec (.trgCfg none none) s = .next (answered .ok [] s)) ∧
  (∀ (x : Nat) (lines : Set8) (hop : Option Nat) (s : State), s.inReset = false →
    ((2 ^ 56 ≤ x ∨ ∃ h, hop = some h ∧ 31 < h) → exec (.trgSched x lines hop) s = .next (answered .badValue [] s)) ∧
    (x < 2 ^ 56 → (∀ h, hop = some h → h ≤ 31) → s.mgmt.frame = 0 →
      exec (.trgSched x lines hop) s = .next (answered .state [] s)) ∧
    (x < 2 ^ 56 → (∀ h, hop = some h → h ≤ 31) → s.mgmt.frame ≠ 0 →
      let id := BitVec.ofNat 16 (s.mgmt.frame * 1024 + s.trg.nextCount)
      let held := (∃ y ∈ s.trg.queue, y.id = id) ∨ ∃ y ∈ s.trg.history, y.id = id
      let ahead := (BitVec.ofNat 56 x - wholeTicks s.tb.reading).toNat
      let late := (wholeTicks s.tb.reading - BitVec.ofNat 56 x).toNat
      let isAhead := 1 ≤ ahead ∧ ahead < 2 ^ 55
      let used := { s with trg := { s.trg with nextCount := (s.trg.nextCount + 1) % 1024 } }
      let zeros := List.replicate 8 (0 : Byte)
      let limit := hop.getD s.trg.defaultHop
      let cell : TriggerCell := { id := id, fireTime := BitVec.ofNat 56 x, lines := lines, hop := limit - 1 }
      let forwarded := fun pend owed : Set4 =>
        if pend = 0 then none else some { cell := .inl cell, pendPorts := pend, owedPorts := owed : ForwardRecord }
      let waiting := fun p : PortId => (s.port p).ctrlQ
      (held → exec (.trgSched x lines hop) s = .next (answered .duplicate (beBytes 2 id.toNat ++ [0xFF] ++ zeros)
        { used with trg := { used.trg with duplicate := s.trg.duplicate + 1 } })) ∧
      (¬held → isAhead → 16 ≤ s.trg.queue.length → exec (.trgSched x lines hop) s =
        .next (answered .queueFull (beBytes 2 id.toNat ++ [0xFF] ++ zeros) used)) ∧
      (¬held → ¬isAhead → s.trg.lateWindow < late → ∃ t, exec (.trgSched x lines hop) s = .next t ∧
        t.mgmt.answer = some { status := .tooLate, body := beBytes 2 id.toNat ++ [0xFF, 1] ++ beBytes 7 late } ∧
        t.trg.history.getLast? = some { id := id, kind := .stale, forward := none } ∧
        t.trg.queue = s.trg.queue ∧ t.trg.stale = s.trg.stale + 1 ∧ t.ports = s.ports ∧ t.entries = s.entries ∧
        t.trg.nextCount = used.trg.nextCount) ∧
      (¬held → ¬isAhead → late ≤ s.trg.lateWindow → ∃ t, exec (.trgSched x lines hop) s = .next t ∧
        t.mgmt.answer = some {
          status := .ok, body := beBytes 2 id.toNat ++ [1, if late = 0 then 0 else 1] ++ beBytes 7 late } ∧
        (∃ pend owed, floods limit none (.trigger cell) waiting s t pend owed ∧ t.trg.history.getLast? = some
          { id := id, kind := .firedByJudgement, forward := forwarded pend owed }) ∧
        t.trg.queue = s.trg.queue ∧ (∀ k, (s.slot k).presence = .present → (s.slot k).cfg.subscription &&& lines ≠ 0 →
          (t.slot k).trigPulse = true) ∧ t.trg.nextCount = used.trg.nextCount) ∧
      (¬held → isAhead → s.trg.queue.length < 16 → ∃ t y, exec (.trgSched x lines hop) s = .next t ∧
        t.mgmt.answer = some { status := .ok, body := beBytes 2 id.toNat ++ [0] ++ zeros } ∧
        y.id = id ∧ y.fireTime = BitVec.ofNat 56 x ∧ y.lines = lines ∧ y.arrival = none ∧
        y.hop = limit ∧ floods limit none (.trigger cell) waiting s t y.pendPorts y.owedPorts ∧
        t.trg.queue.Perm (y :: s.trg.queue) ∧
        (s.trg.queue.Pairwise (fun u w => trigBefore (wholeTicks s.tb.reading) u w = true) →
          t.trg.queue.Pairwise (fun u w => trigBefore (wholeTicks s.tb.reading) u w = true)) ∧
        t.trg.history = s.trg.history ∧ t.trg.nextCount = used.trg.nextCount ∧ t.entries = s.entries))) ∧
  ∀ (p : PortId) (c : TriggerCell) (s : State), s.inReset = false →
    ((s.port p).link ≠ .active → (s.port p).link ≠ .draining → exec (.triggerReceived ⟨p, true⟩ c) s = .next s) ∧
    (((s.port p).link = .active ∨ (s.port p).link = .draining) →
      let held := (∃ y ∈ s.trg.queue, y.id = c.id) ∨ ∃ y ∈ s.trg.history, y.id = c.id
      let ahead := (c.fireTime - wholeTicks s.tb.reading).toNat
      (held → exec (.triggerReceived ⟨p, true⟩ c) s =
        .next { s with trg := { s.trg with duplicate := s.trg.duplicate + 1 } }) ∧
      let late := (wholeTicks s.tb.reading - c.fireTime).toNat
      let isAhead := 1 ≤ ahead ∧ ahead < 2 ^ 55
      let cell : TriggerCell := { c with hop := c.hop - 1 }
      let forwarded := fun pend owed : Set4 =>
        if pend = 0 then none else some { cell := .inl cell, pendPorts := pend, owedPorts := owed : ForwardRecord }
      let waiting := fun q : PortId => (s.port q).ctrlQ
      (¬held → ¬isAhead → s.trg.lateWindow < late → ∃ t, exec (.triggerReceived ⟨p, true⟩ c) s = .next t ∧
        t = { s with trg := t.trg, mgmt := t.mgmt } ∧ t.trg.queue = s.trg.queue ∧ t.trg.stale = s.trg.stale + 1 ∧
        t.trg.history.getLast? = some { id := c.id, kind := .stale, forward := none } ∧
        (canStore .triggerStale s → t.mgmt.notices = s.mgmt.notices ++
          [noticeNow .triggerStale c.id.toNat (min late (2 ^ 32 - 1) : Nat) p.val s])) ∧
      (¬held → ¬isAhead → late ≤ s.trg.lateWindow → ∃ t, exec (.triggerReceived ⟨p, true⟩ c) s = .next t ∧
        t.trg.queue = s.trg.queue ∧
        (∃ pend owed, floods c.hop (some p) (.trigger cell) waiting s t pend owed ∧ t.trg.history.getLast? = some
          { id := c.id, kind := .firedByJudgement, forward := forwarded pend owed }) ∧
        (∀ k, (s.slot k).presence = .present → (s.slot k).cfg.subscription &&& c.lines ≠ 0 →
          (t.slot k).trigPulse = true) ∧
        (late = 0 → t.trg.fired = s.trg.fired + 1 ∧ (canStore .triggerFired s → t.mgmt.notices =
          s.mgmt.notices ++ [noticeNow .triggerFired c.id.toNat c.lines.toNat 0 s])) ∧
        (late ≠ 0 → t.trg.lateFired = s.trg.lateFired + 1 ∧ (canStore .triggerLate s → t.mgmt.notices =
          s.mgmt.notices ++ [noticeNow .triggerLate c.id.toNat late c.lines.toNat s]))) ∧
      (¬held → isAhead → 16 ≤ s.trg.queue.length → ∃ t, exec (.triggerReceived ⟨p, true⟩ c) s = .next t ∧
        t = { s with trg := { s.trg with dropped := s.trg.dropped + 1 }, mgmt := t.mgmt } ∧
        (canStore .triggerDropped s →
          t.mgmt.notices = s.mgmt.notices ++ [noticeNow .triggerDropped c.id.toNat p.val 0 s])) ∧
      (¬held → isAhead → s.trg.queue.length < 16 →
        ∃ t y, exec (.triggerReceived ⟨p, true⟩ c) s = .next t ∧ t.trg.queue.Perm (y :: s.trg.queue) ∧
          (s.trg.queue.Pairwise (fun u w => trigBefore (wholeTicks s.tb.reading) u w = true) →
            t.trg.queue.Pairwise (fun u w => trigBefore (wholeTicks s.tb.reading) u w = true)) ∧
          y.id = c.id ∧ y.fireTime = c.fireTime ∧ y.lines = c.lines ∧ y.hop = c.hop ∧ y.arrival = some p ∧
          y.pendPorts.getLsbD p.val = false ∧ floods c.hop (some p) (.trigger cell) waiting s t y.pendPorts y.owedPorts ∧
          t.mgmt = s.mgmt ∧ t.trg.history = s.trg.history ∧ t.entries = s.entries ∧ t.slots = s.slots))

/-- A queued trigger fires: the PRESENT slots that subscribe to one of its lines pulse, the open blocks of running origin
entries take the mark, its waiting cells are withdrawn, and its id moves from the queue to the history. A step judges every
queued trigger: still ahead it stays, within the late window it fires with its forwards kept, stale it leaves. A boundary
places the cells owed to a port in queue order, then record order. A cancel removes a queued trigger with its waiting cells, and
is late for a finished one; for a queued id and for one held nowhere it leaves a tombstone, and the CANCEL is flooded with the hop
limit less 1, the tombstone's forward record holding the ports it goes to and those it is owed to. That one which finds a
tombstone is counted nowhere, that `trg.cancel` leaves the cancel-late count, and that a cell which a dropped record has left
waiting is withdrawn with its id and does not hinder the flood, is the model's choice (R168, R174, R180 to R185, R187; log 27,
65). -/
def Obligations.TriggersFireAndCancel : Prop :=
  let pushed := fun (r : HistoryRecord) (h : List HistoryRecord) => (if 16 ≤ h.length then h.tail else h) ++ [r]
  let withdrawn := fun (s : State) (id : TrigId) (p : PortId) => (s.port p).ctrlQ.filter fun c =>
    match c with
    | .trigger x => x.id != id
    | _ => true
  let buries := fun (id : TrigId) (hop : Nat) (arrival : Option PortId) (before : PortId → List ControlCell) (s t : State) =>
    ∃ pend owed, floods hop arrival (.cancel { id := id, hop := hop - 1 }) before s t pend owed ∧
      t.trg.history = pushed
        { id := id, kind := .tombstone
          forward := if pend = 0 then none else some
            { cell := .inr { id := id, hop := hop - 1 }, pendPorts := pend, owedPorts := owed } } s.trg.history
  (∀ (x : TrigEntry) (s : State), s.inReset = false → s.trg.queue.find? (fun y => y.id == x.id) = some x →
    ∃ t, exec (.triggerFire x.id) s = .next t ∧ t.trg.queue = s.trg.queue.filter (fun y => y.id != x.id) ∧
      t.trg.history = pushed { id := x.id, kind := .fired, forward := none } s.trg.history ∧
      t.trg.fired = s.trg.fired + 1 ∧ t.tb = s.tb ∧ t.buffer = s.buffer ∧
      (∀ p, ∀ c, .trigger c ∈ (t.port p).ctrlQ → c.id ≠ x.id) ∧
      (∀ p, (t.port p).flight = (s.port p).flight) ∧
      (∀ k, t.slot k = if (s.slot k).presence = .present ∧ (s.slot k).cfg.subscription &&& x.lines ≠ 0 then
          { s.slot k with
            trigPulse := true
            counters := { (s.slot k).counters with trigPulses := (s.slot k).counters.trigPulses + 1 } }
        else s.slot k) ∧
      (∀ en, (isOrigin (s.entry en) = false ∨ (s.entry en).state ≠ .running) → t.entry en = s.entry en) ∧
      (∀ en, isOrigin (s.entry en) = true → (s.entry en).state = .running →
        (hasOpen (s.entry en) = false → t.entry en = { s.entry en with waiting := (s.entry en).waiting ++ [x.id] }) ∧
        (hasOpen (s.entry en) = true → t.entry en = { s.entry en with
            outside := (t.entry en).outside, ring := (t.entry en).ring } ∧
          ∀ (i : Nat) (b : Block), (s.entry en).ring[i]? = some b → (t.entry en).ring[i]? =
            some (if b.isOpen = false then b
              else if b.mark = none then
                { b with mark := some (x.id, BitVec.ofNat 16 (b.len / (s.entry en).width)) }
              else { b with extraMarks := if b.extraMarks < 255 then b.extraMarks + 1 else b.extraMarks }))) ∧
      (canStore .triggerFired s →
        t.mgmt.notices = s.mgmt.notices ++ [noticeNow .triggerFired x.id.toNat x.lines.toNat 0 s])) ∧
  (∀ (id : TrigId) (s : State), s.inReset = false → (∀ y ∈ s.trg.queue, y.id ≠ id) → exec (.triggerFire id) s = .next s) ∧
  (∀ (n : Int) (s : State), s.inReset = false → s.tb.role = .root → n.natAbs ≤ 2 ^ 47 → triggerIdsDistinct s →
    ∃ t, exec (.tbOffset n) s = .next t ∧
      let now := wholeTicks (s.tb.reading + BitVec.ofInt 64 (n * 256))
      ∀ x ∈ s.trg.queue,
        let isAhead := 1 ≤ (x.fireTime - now).toNat ∧ (x.fireTime - now).toNat < 2 ^ 55
        let late := (now - x.fireTime).toNat
        let finished := fun r : HistoryRecord => (∀ y ∈ t.trg.queue, y.id ≠ x.id) ∧ r ∈ t.trg.history
        (isAhead → x ∈ t.trg.queue) ∧
        (¬isAhead → s.trg.lateWindow < late → finished { id := x.id, kind := .stale, forward := none }) ∧
        (¬isAhead → late ≤ s.trg.lateWindow → finished
          { id := x.id, kind := .firedByJudgement
            forward := if x.pendPorts = 0 then none else some
              { cell := .inl { id := x.id, fireTime := x.fireTime, lines := x.lines, hop := x.hop - 1 }
                pendPorts := x.pendPorts, owedPorts := x.owedPorts } })) ∧
  (∀ (p : PortId) (s : State), s.inReset = false → (s.port p).link = .active →
    (∀ en, (s.entry en).state = .closed ∧ (s.entry en).owedCredit = false) →
    let owedBy := fun r : HistoryRecord => r.forward.filter fun f => f.owedPorts.getLsbD p.val
    let queued := s.trg.queue.filter fun x => x.owedPorts.getLsbD p.val
    let kept := s.trg.history.filterMap owedBy
    (s.port p).ctrlQ.length + queued.length + kept.length ≤ 16 → ∃ t, exec .epochBoundary s = .next t ∧
      (t.port p).ctrlQ = (s.port p).ctrlQ ++
        queued.map (fun x => .trigger { id := x.id, fireTime := x.fireTime, lines := x.lines, hop := x.hop - 1 }) ++
        kept.map (fun f => match f.cell with
          | .inl c => .trigger c
          | .inr c => .cancel c) ∧
      (∀ x ∈ t.trg.queue, x.owedPorts.getLsbD p.val = false) ∧ ∀ r ∈ t.trg.history, owedBy r = none) ∧
  (∀ (id : TrigId) (hop : Option Nat) (s : State), s.inReset = false → (∀ h, hop = some h → h ≤ 31) →
    let body := fun n : Nat => beBytes 2 id.toNat ++ [BitVec.ofNat 8 n]
    let limit := hop.getD s.trg.defaultHop
    ((∃ y ∈ s.trg.queue, y.id = id) → ∃ t, exec (.trgCancel id.toNat hop) s = .next t ∧
      t.mgmt.answer = some { status := .ok, body := body 0 } ∧
      t.trg.queue = s.trg.queue.filter (fun y => y.id != id) ∧ t.trg.cancelled = s.trg.cancelled + 1 ∧
      buries id limit none (withdrawn s id) s t ∧
      (∀ p, ∀ c, .trigger c ∈ (t.port p).ctrlQ → c.id ≠ id) ∧ t.slots = s.slots ∧ t.entries = s.entries) ∧
    ((∀ y ∈ s.trg.queue, y.id ≠ id) →
      (∀ r, s.trg.history.find? (fun y => y.id == id) = some r →
        (r.kind = .tombstone → exec (.trgCancel id.toNat hop) s = .next (answered .ok (body 1) s)) ∧
        (r.kind ≠ .tombstone →
          exec (.trgCancel id.toNat hop) s = .next (answered .tooLate (body r.kind.code) s))) ∧
      ((∀ y ∈ s.trg.history, y.id ≠ id) → ∃ t, exec (.trgCancel id.toNat hop) s = .next t ∧
        t.mgmt.answer = some { status := .ok, body := body 2 } ∧ t.trg.queue = s.trg.queue ∧
        buries id limit none (fun p => (s.port p).ctrlQ) s t ∧ t.mgmt.notices = s.mgmt.notices ∧
        t.trg.cancelled = s.trg.cancelled ∧ t.slots = s.slots ∧ t.entries = s.entries))) ∧
  ∀ (p : PortId) (c : CancelCell) (s : State), s.inReset = false →
    ((s.port p).link = .active ∨ (s.port p).link = .draining) →
    ((∃ y ∈ s.trg.queue, y.id = c.id) → ∃ t, exec (.cancelReceived ⟨p, true⟩ c) s = .next t ∧
      t.trg.queue = s.trg.queue.filter (fun y => y.id != c.id) ∧ t.trg.cancelled = s.trg.cancelled + 1 ∧
      buries c.id c.hop (some p) (withdrawn s c.id) s t ∧ t.slots = s.slots ∧ t.entries = s.entries ∧
      (canStore .triggerCancelled s →
        t.mgmt.notices = s.mgmt.notices ++ [noticeNow .triggerCancelled c.id.toNat p.val 0 s])) ∧
    ((∀ y ∈ s.trg.queue, y.id ≠ c.id) → (∀ y ∈ s.trg.history, y.id ≠ c.id) →
      ∃ t, exec (.cancelReceived ⟨p, true⟩ c) s = .next t ∧ t.trg.queue = s.trg.queue ∧
        buries c.id c.hop (some p) (fun q => (s.port q).ctrlQ) s t ∧ t.mgmt = s.mgmt ∧
        t.trg.cancelled = s.trg.cancelled ∧ t.trg.cancelLate = s.trg.cancelLate ∧ t.slots = s.slots ∧
        t.entries = s.entries) ∧
    ((∀ y ∈ s.trg.queue, y.id ≠ c.id) →
      ∀ r, s.trg.history.find? (fun y => y.id == c.id) = some r →
        (r.kind = .tombstone → exec (.cancelReceived ⟨p, true⟩ c) s = .next s) ∧
        (r.kind ≠ .tombstone → ∃ t, exec (.cancelReceived ⟨p, true⟩ c) s = .next t ∧
          t = { s with trg := { s.trg with cancelLate := s.trg.cancelLate + 1 }, mgmt := t.mgmt } ∧
          (canStore .cancelLate s →
            t.mgmt.notices = s.mgmt.notices ++ [noticeNow .cancelLate c.id.toNat p.val r.kind.code s])))

/-! ### Management port (chapter 9) -/

/-- SPI transactions: an unknown first byte is counted; a frame written during a decode marks an overrun and is ignored; a
frame written otherwise discards an unread reply, and goes into decode, answered at once when it is cut short, its kind names
no request, or its body does not fit a layout that the owner checks first; a body that `org.cfg`, or a stream request with other
checks before it, is to refuse waits for its owner; the answer makes the reply ready; and a read drives the reply, or
NOT_READY, and empties the slot when it reaches the last byte. That these answers come at the frame (log 17), and the bytes
driven on SDO (log 8), are the model's choice (R192, R193, R194, R195, R196, R197, R208). -/
def Obligations.SpiTransactions : Prop :=
  (∀ (first : Byte) (n : Nat) (s : State), s.inReset = false →
      first ≠ 0xC3 → first ≠ 0x3C → exec (.spiUnknownTransaction first n) s =
    .next { s with mgmt := { s.mgmt with
      unknownTrans := s.mgmt.unknownTrans + 1, sdo := List.replicate n 0 } }) ∧
  (∀ (bytes : List Byte) (s : State), s.inReset = false →
    (∀ d, s.mgmt.inDecode = some d → exec (.requestFrameWrite bytes) s = .next { s with mgmt := { s.mgmt with
      inDecode := some { d with overrun := true }, overruns := s.mgmt.overruns + 1
      sdo := List.replicate bytes.length 0 } }) ∧
    (s.mgmt.inDecode = none →
      let discards := fun m : Mgmt => { m with
        replySlot := none, sdo := List.replicate bytes.length 0
        discardedReplies := m.discardedReplies + (if m.replySlot.isSome then 1 else 0) }
      ((bytes.length < 3 ∨ 250 < (bytes.getD 2 0).toNat ∨ bytes.length < 3 + (bytes.getD 2 0).toNat) →
        exec (.requestFrameWrite bytes) s = .next { s with mgmt := { discards s.mgmt with
          badFrames := s.mgmt.badFrames + 1
          inDecode := some
            { kind := bytes.getD 0 0, tag := bytes.getD 1 0, body := [], discarded := s.mgmt.replySlot.isSome
              overrun := false }
          answer := some { status := .badFrame, body := [] } } }) ∧
      ∀ kind tag len rest, bytes = kind :: tag :: len :: rest → len.toNat ≤ 250 → len.toNat ≤ rest.length →
        ∃ a, exec (.requestFrameWrite bytes) s = .next { s with mgmt := { discards s.mgmt with
            inDecode := some
              { kind := kind, tag := tag, body := rest.take len.toNat, discarded := s.mgmt.replySlot.isSome
                overrun := false }
            answer := a } } ∧
          (kind ∉ [0x01, 0x02, 0x03, 0x08, 0x09, 0x10, 0x11, 0x12, 0x13, 0x14, 0x15, 0x20, 0x21, 0x22, 0x23, 0x24,
              0x30, 0x31, 0x32, 0x33, 0x40, 0x41, 0x42, 0x48, 0x49, 0x50, 0x51, 0x52, 0x53, 0x54, 0x55, 0x56, 0x60,
              0x61, 0x62, 0x70, 0x71, 0x72, 0x73] → a = some { status := .badKind, body := [] }) ∧
          (kind = 0x13 → len = 0 → a = none) ∧
          (kind = 0x13 → len ≠ 0 → a = some { status := .badValue, body := [] }) ∧
          (kind = 0x30 → a = none) ∧
          (kind ∈ [0x50, 0x54, 0x55] → a = if len = 0 then some { status := .badValue, body := [] } else none) ∧
          (kind ∈ [0x51, 0x52, 0x53] → a = if len = 1 then none else some { status := .badValue, body := [] }))) ∧
  (∀ (d : InDecode) (a : Answer) (s : State), s.inReset = false → s.mgmt.inDecode = some d → s.mgmt.answer = some a →
    exec .replyMadeReady s = .next { s with mgmt := { s.mgmt with
      inDecode := none, answer := none, decoded := s.mgmt.decoded + 1
      replySlot := some
        { kind := d.kind, tag := d.tag, status := a.status, discarded := d.discarded, overrun := d.overrun
          body := a.body } } }) ∧
  (∀ s : State, s.inReset = false → (s.mgmt.inDecode = none ∨ s.mgmt.answer = none) → exec .replyMadeReady s = .next s) ∧
  ∀ (n : Nat) (s : State), s.inReset = false →
    let flags := fun disc ovr : Bool => flagsByte [!s.mgmt.notices.isEmpty, s.mgmt.lostFlag, disc, ovr]
    let head := fun (kind tag st : Byte) (disc ovr : Bool) (len : Nat) =>
      [kind, tag, st, flags disc ovr, BitVec.ofNat 8 (len / 256), BitVec.ofNat 8 len]
    (∀ r, s.mgmt.replySlot = some r →
      let frame := head r.kind r.tag (BitVec.ofNat 8 r.status.code) r.discarded r.overrun r.body.length ++ r.body
      (n < frame.length → exec (.replyRead n) s = .next { s with mgmt := { s.mgmt with sdo := frame.take n } }) ∧
      (frame.length ≤ n → exec (.replyRead n) s = .next { s with mgmt := { s.mgmt with
        replySlot := none, sdo := frame ++ List.replicate (n - frame.length) 0 } })) ∧
    (s.mgmt.replySlot = none → ∃ kind tag, exec (.replyRead n) s = .next { s with mgmt := { s.mgmt with
        sdo := (head kind tag 0x02 false false 0 ++ List.replicate (n - 6) 0).take n } } ∧
      (s.mgmt.inDecode = none → kind = 0 ∧ tag = 0) ∧
      ∀ d, s.mgmt.inDecode = some d → kind = d.kind ∧ tag = d.tag)

/-- RESET is a level. Its assertion puts every block at its reset values and keeps the buffer; while it is asserted no command but
RESET_PIN has any effect, no SPI transaction is taken, and of the pins only the levels follow; every step keeps it so. Its release
samples the straps and starts each block at its reset values; on a root the qualifiers come on with their notices. `hub.reset`
ALL does the same and keeps the request in decode, answered OK. `hub.reset` TRAFFIC closes every entry and empties the queues,
the triggers and the notices, and keeps the rest. `hub.frame` sets the frame number unless a port holds a peer, and the ports
waiting with signal begin to train. The levels of the pins, the last block begun, SDO, the order of the two notices, what
`hub.reset` ALL keeps, the codes of the cleared entry fields and what the straps decide while RESET is asserted are the model's
choice (R33, R54, R55, R98, R103, R124, R154, R171, R190, R192, R199 to R201; log 5, 7, 8, 12, 35, 50, 63). -/
def Obligations.ResetsAndFrame : Prop :=
  let begins := fun (root en : Bool) (s : State) =>
    { State.reset with
      tb := { State.reset.tb with
        role := if root then .root else .member, servo := if root then .master else .free }
      org := { State.reset.org with startLevel := s.org.startLevel }
      ports := s.ports.map fun q =>
        { Port.reset true false false with
          present := q.present, signal := q.signal
          link := if en then (if q.present then .settling else .empty) else .disabled
          debounce := if en && q.present then some (50 * 125000) else none }
      slots := s.slots.map fun q =>
        { Slot.reset false with
          present := q.present, presence := if q.present then .settling else .empty
          debounce := if q.present then some (20 * 125000) else none }
      buffer := s.buffer, pending := s.pending
      mgmt := { State.reset.mgmt with rootStrap := root, portEnStrap := en } }
  let starts := fun (root en : Bool) (s : State) =>
    let r := begins root en s
    if root then { r with
      win := { r.win with stamp := { r.win.stamp with on := true }, grade := { r.win.grade with on := true } }
      mgmt := { r.mgmt with notices :=
        [noticeNow .qualChange 0 (1 + 256 * 8) 0 r, noticeNow .qualChange 1 (1 + 256 * 8) 0 r] } }
    else r
  (∀ (straps : Straps) (s : State),
    exec (.resetPin s.inReset straps) s = .next s ∧
    (s.inReset = false →
      exec (.resetPin true straps) s = .next { begins false false s with
        inReset := true, slots := s.slots.map fun q => { Slot.reset false with present := q.present } } ∧
      exec (.hubResetAll straps.root straps.portEn) s =
        let t := starts straps.root straps.portEn s
        .next (answered .ok [] { t with mgmt := { t.mgmt with inDecode := s.mgmt.inDecode, sdo := s.mgmt.sdo } })) ∧
    (s.inReset = true → exec (.resetPin false straps) s = .next (starts straps.root straps.portEn s))) ∧
  (∀ s : State, s.inReset = true →
    let port := fun (p : PortId) (q : Port) => { s with ports := s.ports.set p q }
    let slot := fun (k : SlotId) (q : Slot) => { s with slots := s.slots.set k q }
    exec .startRise s = .next { s with org := { s.org with startLevel := true } } ∧
    exec .startFall s = .next { s with org := { s.org with startLevel := false } } ∧
    (∀ p, exec (.portPresentRise p) s = .next (port p { s.port p with present := true }) ∧
      exec (.portPresentFall p) s = .next (port p { s.port p with present := false }) ∧
      exec (.portSignalRise p) s = .next (port p { s.port p with signal := true }) ∧
      exec (.portSignalFall p) s = .next (port p { s.port p with signal := false })) ∧
    (∀ k, exec (.slotPresentRise k) s = .next (slot k { s.slot k with present := true }) ∧
      exec (.slotPresentFall k) s = .next (slot k { s.slot k with present := false })) ∧
    ∀ c : Instr, (∀ a straps, c ≠ .resetPin a straps) →
      (∀ (p : PortId) (k : SlotId), c ∉ [Instr.startRise, .startFall, .portPresentRise p, .portPresentFall p,
        .portSignalRise p, .portSignalFall p, .slotPresentRise k, .slotPresentFall k]) → exec c s = .next s) ∧
  (∀ s t : State, heldInReset s → step s = .next t → heldInReset t) ∧
  (∀ s : State, s.inReset = false → ∃ t, exec .hubResetTraffic s = .next t ∧ t.tb = s.tb ∧ t.win = s.win ∧ t.org = s.org ∧
    t.xmit = s.xmit ∧ t.buffer = s.buffer ∧ t.pending = s.pending ∧
    t.mgmt = { (answered .ok [] s).mgmt with notices := [], lostFlag := false, lostCount := 0 } ∧
    t.trg = { s.trg with queue := [], history := [] } ∧
    (∀ en, (t.entry en).state = .closed ∧
      ((s.entry en).state ≠ .closed → (t.entry en).ring = [] ∧ (t.entry en).hold = false ∧ (t.entry en).destPorts = 0 ∧
        (t.entry en).destSlots = 0 ∧ (t.entry en).rackId = (s.entry en).rackId ∧
        (t.entry en).counters.created = (s.entry en).counters.created) ∧
      ((s.entry en).state = .closed → t.entry en = s.entry en)) ∧
    (∀ p, (t.port p).ctrlQ = [] ∧ (t.port p).timingQ = (s.port p).timingQ ∧ (t.port p).link = (s.port p).link ∧
      (.quiesce ∈ (s.port p).ctrlQ → (t.port p).quiesceOwed = true) ∧
      (.resume ∈ (s.port p).ctrlQ → (t.port p).resumeOwed = true)) ∧
    ∀ k, (t.slot k).presenting = none ∧ (t.slot k).head = none ∧ (t.slot k).playingFlag = false ∧
      (t.slot k).underrun = false ∧ (t.slot k).presence = (s.slot k).presence ∧ (t.slot k).cfg = (s.slot k).cfg ∧
      (t.slot k).lastValue = (s.slot k).lastValue) ∧
  ∀ (n : Nat) (s : State), s.inReset = false →
    let holds := ∃ p : PortId, (s.port p).link = .training ∨ (s.port p).link = .active ∨ (s.port p).link = .lost ∨
      (s.port p).link = .draining ∨ (s.port p).link = .quiesced
    ((n = 0 ∨ 63 < n) → exec (.hubFrame n) s = .next (answered .badValue [] s)) ∧
    (1 ≤ n → n ≤ 63 → holds → exec (.hubFrame n) s = .next (answered .state [] s)) ∧
    (1 ≤ n → n ≤ 63 → ¬holds → ∃ t, exec (.hubFrame n) s = .next t ∧
      t = { s with ports := t.ports, mgmt := { (answered .ok [] s).mgmt with frame := n } } ∧
      ∀ p, ((s.port p).link = .waiting → (s.port p).signal = true →
          (t.port p).link = .training ∧ (t.port p).train.attempt = 1 ∧ (t.port p).signalWait = none) ∧
        (((s.port p).link ≠ .waiting ∨ (s.port p).signal = false) → t.port p = s.port p))

/-- `ntc.get` takes up to its count of notices, 15 when it has none, in class order and oldest first within a class; the notices
left keep their order; the reply carries the number returned, the number left, the lost flag and count as they stood, and the
notices; then the flag and the count are cleared. A count out of range is refused (R204). -/
def Obligations.NtcGetTakesClassOrder : Prop :=
  ∀ (count : Option Nat) (s : State), s.inReset = false →
    ((∃ n, count = some n ∧ (n = 0 ∨ 15 < n)) → exec (.ntcGet count) s = .next (answered .badValue [] s)) ∧
    ((∀ n, count = some n → 1 ≤ n ∧ n ≤ 15) →
      ∃ taken left : List Notice,
        exec (.ntcGet count) s = .next (answered .ok
          ([BitVec.ofNat 8 taken.length, BitVec.ofNat 8 left.length, boolByte s.mgmt.lostFlag] ++
            beBytes 2 s.mgmt.lostCount ++ taken.flatMap noticeBytes)
          { s with mgmt := { s.mgmt with notices := left, lostFlag := false, lostCount := 0 } }) ∧
        taken.length = min (count.getD 15) s.mgmt.notices.length ∧
        left.Sublist s.mgmt.notices ∧ s.mgmt.notices.Perm (taken ++ left) ∧
        taken.Pairwise (fun a b => classOfCode a.kind.code ≤ classOfCode b.kind.code) ∧
        (∀ a ∈ taken, ∀ b ∈ left, classOfCode a.kind.code ≤ classOfCode b.kind.code) ∧
        ∀ c, s.mgmt.notices.filter (fun n => classOfCode n.kind.code == c) =
          taken.filter (fun n => classOfCode n.kind.code == c) ++ left.filter (fun n => classOfCode n.kind.code == c))

/-- `ntc.mask` masks and enables the kinds its two lists name, a class standing for every kind of it; a kind in neither keeps its
mask; a kind in both, or a class or kind outside the table, refuses it; the reply is the masks as they then stand; and the
notices already in the list stay. The RESET pin and `hub.reset` ALL enable every kind, and `hub.reset` TRAFFIC keeps the masks
(R205). -/
def Obligations.NtcMaskSetsMasks : Prop :=
  ∀ (r : NtcMaskReq) (s : State), s.inReset = false →
    let names := fun (classes : BitVec 8) (kinds : BitVec 40) (k : NoticeKind) =>
      kinds.getLsbD k.code = true ∨ classes.getLsbD (classOfCode k.code - 1) = true
    let masks := names r.maskClasses r.maskKinds
    let enables := names r.enableClasses r.enableKinds
    let bad := 32 ≤ r.maskClasses.toNat ∨ 32 ≤ r.enableClasses.toNat ∨ 2 ^ 36 ≤ r.maskKinds.toNat ∨
      2 ^ 36 ≤ r.enableKinds.toNat ∨ ∃ k, masks k ∧ enables k
    (bad → exec (.ntcMask r) s = .next (answered .badValue [] s)) ∧
    (¬bad → ∃ m, exec (.ntcMask r) s =
        .next (answered .ok (beBytes 5 m.toNat) { s with mgmt := { s.mgmt with masked := m } }) ∧
      ∀ k : NoticeKind, (masks k → m.getLsbD k.code = true) ∧ (enables k → m.getLsbD k.code = false) ∧
        (¬masks k → ¬enables k → m.getLsbD k.code = s.mgmt.masked.getLsbD k.code)) ∧
    (∀ straps : Straps, (∃ t u, exec (.resetPin true straps) s = .next t ∧ t.mgmt.masked = 0 ∧
        exec (.resetPin false straps) t = .next u ∧ u.mgmt.masked = 0) ∧
      ∃ t, exec (.hubResetAll straps.root straps.portEn) s = .next t ∧ t.mgmt.masked = 0) ∧
    ∃ t, exec .hubResetTraffic s = .next t ∧ t.mgmt.masked = s.mgmt.masked

/-- ATTN is asserted exactly while the notice list holds a notice: it rises when one is stored in an empty list, falls when
`ntc.get` takes the last one, at `hub.reset` TRAFFIC and at a reset of a member, a dropped notice does not move it, and the
lost flag shows in the reply flags. A notice offered is judged by its mask and by the room in the list: a masked kind leaves
everything as it was, an enabled one is stored at the end with the present stamp, and without room it is dropped, with the
lost flag set and the lost count raised up to 65,535 (R202, R203). -/
def Obligations.AttnFollowsNotices : Prop :=
  (∀ s : State, s.inReset = false →
    (State.attn s = true ↔ s.mgmt.notices ≠ []) ∧
    (∀ d o, (replyFlags s.mgmt d o).getLsbD 1 = s.mgmt.lostFlag) ∧
    (∀ k subject detail extra, s.mgmt.notices = [] → s.mgmt.masked.getLsbD k.code = false →
      State.attn (raiseNotice k subject detail extra s) = true) ∧
    (∀ k subject detail extra, 32 ≤ s.mgmt.notices.length →
      State.attn (raiseNotice k subject detail extra s) = State.attn s) ∧
    (s.mgmt.notices.length ≤ 15 → ∃ t, exec (.ntcGet none) s = .next t ∧ State.attn t = false) ∧
    (∃ t, exec .hubResetTraffic s = .next t ∧ State.attn t = false) ∧
    ∀ b, (∃ t u, exec (.resetPin true ⟨false, b⟩) s = .next t ∧ State.attn t = false ∧
        exec (.resetPin false ⟨false, b⟩) t = .next u ∧ State.attn u = false) ∧
      ∃ t, exec (.hubResetAll false b) s = .next t ∧ State.attn t = false) ∧
  (∀ (k : NoticeKind) (subject : Nat) (detail extra : Int) (s : State),
    (s.mgmt.masked.getLsbD k.code = true → raiseNotice k subject detail extra s = s) ∧
    (s.mgmt.masked.getLsbD k.code = false → s.mgmt.notices.length < 32 →
      raiseNotice k subject detail extra s = { s with mgmt := { s.mgmt with
        notices := s.mgmt.notices ++ [noticeNow k subject detail extra s] } }) ∧
    (s.mgmt.masked.getLsbD k.code = false → 32 ≤ s.mgmt.notices.length →
      raiseNotice k subject detail extra s = { s with mgmt := { s.mgmt with
        lostFlag := true
        lostCount := if s.mgmt.lostCount < 65535 then s.mgmt.lostCount + 1 else s.mgmt.lostCount } }))

/-! ### Readouts and formats (chapters 9 and 10) -/

/-- Every readout answers OK with the body of R209, of the length its table gives, and changes nothing; a port, slot or entry
outside its range is refused. The bodies of `tb.stat`, `port.stat`, `strm.stat` and `slot.stat` carry each of their fields at its
place, high byte first; an entry that has not been opened reads as zeros. That the E among the ten `tb.cfg` fields is the one in
force, that an absent item reads as zeros, and that probe 1 is bit 0 of the valid-RT set, are the model's choice; a timer is
stated at whole milliseconds only (R32, R53, R69, R102, R123, R153, R170, R189, R198, R209; log 9, 13, 53, 60). -/
def Obligations.ReadoutsReply : Prop :=
  (∀ s : State, s.inReset = false →
    (exec .tbNow s = .next (answered .ok (readingBytes s.tb.reading) s) ∧ (readingBytes s.tb.reading).length = 8 ∧
      ofBytes (readingBytes s.tb.reading) = s.tb.reading.toNat) ∧
    (exec .tbStat s = .next (answered .ok (tbStatBody s) s) ∧ (tbStatBody s).length = 60) ∧
    (exec .winStat s = .next (answered .ok (winStatBody s.win) s) ∧ (winStatBody s.win).length = 145) ∧
    (exec .orgStat s = .next (answered .ok (orgStatBody s) s) ∧ (orgStatBody s).length = 35) ∧
    (exec .hubId s = .next (answered .ok (hubIdBody s) s) ∧ (hubIdBody s).length = 18 ∧
      (hubIdBody s).take 5 = [0x52, 0x4C, 0x34, 0x38, 3]) ∧
    (∀ p : PortId,
      exec (.portStat p.val) s = .next (answered .ok (portStatBody (s.port p)) s) ∧
      (portStatBody (s.port p)).length = 61 ∧
      exec (.xmitStat p.val) s = .next (answered .ok (xmitStatBody s p) s) ∧
      ((s.port p).timingQ.length ≤ 4 → (s.port p).ctrlQ.length ≤ 16 →
        (xmitStatBody s p).length = 94 + 2 * (owedCredits s p).length)) ∧
    (∀ en : EntryId, exec (.strmStat en.val) s = .next (answered .ok (strmStatBody s (s.entry en)) s) ∧
      (strmStatBody s (s.entry en)).length = 160) ∧
    (∀ (k : SlotId) (v : Bool), exec (.slotStat k.val v) s = .next (answered .ok (slotStatBody s k v) s) ∧
      (slotStatBody s k v).length = 80) ∧
    (∀ first, first ≤ 15 →
      exec (.trgList 0 first) s = .next (answered .ok (trgListBody s.trg false first) s) ∧
      (trgListBody s.trg false first).length = 40 + 14 * min 8 (s.trg.queue.length - first) ∧
      exec (.trgList 1 first) s = .next (answered .ok (trgListBody s.trg true first) s) ∧
      (trgListBody s.trg true first).length = 40 + 8 * min 8 (s.trg.history.length - first)) ∧
    (∀ n, 4 ≤ n → exec (.portStat n) s = .next (answered .badValue [] s) ∧
      exec (.xmitStat n) s = .next (answered .badValue [] s)) ∧
    (∀ n, 32 ≤ n → exec (.strmStat n) s = .next (answered .badValue [] s)) ∧
    (∀ n v, 8 ≤ n → exec (.slotStat n v) s = .next (answered .badValue [] s)) ∧
    (∀ a b, (2 ≤ a ∨ 16 ≤ b) → exec (.trgList a b) s = .next (answered .badValue [] s))) ∧
  let fits := fun (body : List Byte) (fields : List (Nat × Nat × Nat)) =>
    ∀ f ∈ fields, (body.drop f.1).take f.2.1 = beBytes f.2.1 f.2.2
  let bits := fun l : List Bool => l.foldr (fun b n => (if b then 1 else 0) + 2 * n) 0
  let s32 := fun x : Int => (x % 2 ^ 32).toNat
  let refCode := fun p : Option PortId => (p.map (·.val)).getD 0xFF
  (∀ s : State,
    let t := s.tb
    let seen := (s.tb.role = .root ∧ s.org.aligned = true) ∨
      (s.tb.role = .member ∧ ∃ r m, s.tb.ref = some r ∧ (s.port r).marker = some m ∧ m.aligned = true)
    fits (tbStatBody s) [(0, 1, t.role.code), (1, 1, t.servo.code), (2, 4, s32 t.freq), (6, 4, s32 t.slew), (10, 5, t.gain),
      (15, 4, s32 t.lastE), (19, 1, refCode t.ref), (20, 1, t.refMode.code), (21, 1, refCode t.chosen), (22, 1, t.excursions),
      (23, 1, t.goodSpacings), (24, 2, t.holdoverCount), (26, 4, t.stepCount.toNat), (30, 4, t.epoch),
      (34, 1, bits [t.epochStaged.isSome]), (35, 4, t.epochStaged.getD 0), (40, 1, t.role.code), (41, 4, t.epoch),
      (45, 4, t.params.tstep), (49, 1, t.params.p), (50, 1, t.params.i), (51, 2, t.params.fmax), (53, 2, t.params.smax),
      (55, 2, t.params.spacingTol), (57, 1, bits [t.params.autoRecover]), (58, 2, t.params.holdoverLimit)] ∧
    (seen → fits (tbStatBody s) [(39, 1, 1)]) ∧ (¬seen → fits (tbStatBody s) [(39, 1, 0)])) ∧
  (∀ q : Port,
    let body := portStatBody q
    let left := fun c : Fin 4 => if c = 0 then q.debounce else if c = 1 then q.signalWait else if c = 2 then q.grace else q.drain
    fits body [(0, 1, q.link.code), (1, 1, q.cause.code), (2, 3, q.delay), (5, 1, q.peer), (6, 1, q.score),
      (7, 1, q.train.attempt), (8, 1, q.train.probeCount), (9, 1, bits (q.train.rts.toList.map (·.isSome))),
      (34, 3, q.train.dmin), (37, 3, q.train.dmax), (40, 1, bits [q.resumePending, q.quiesceOwed, q.present, q.signal]),
      (44, 4, q.badCrc.toNat), (48, 4, q.unknownStream.toNat)] ∧
    (∀ i : Fin 8, fits body [(10 + 3 * i.val, 3, q.train.rts[i].getD 0)]) ∧
    (∀ c n, left c = some (n * 125000) → (∀ d, d ≠ c → left d = none) → fits body [(41, 1, c.val), (42, 2, n)]) ∧
    ((∀ c, left c = none) → fits body [(41, 1, 0xFF), (42, 2, 0)]) ∧
    (q.marker = none → fits body [(52, 1, bits [false, false, false, q.mismatch]), (53, 4, 0), (57, 4, 0)]) ∧
    ∀ m, q.marker = some m → fits body [(52, 1, bits [true, m.grade, m.aligned, q.mismatch]), (53, 1, m.age),
      (54, 1, m.sender), (55, 1, m.hop), (56, 1, m.upstream), (57, 4, m.epoch)]) ∧
  (∀ (en : EntryId) (s : State),
    let e := s.entry en
    let c := e.counters
    let body := strmStatBody s e
    (e.opened = false → body = List.replicate 160 0) ∧
    (e.opened = true →
      fits body [(0, 1, e.state.code), (1, 2, e.rackId), (3, 1, e.mode.code),
        (4, 1, bits [e.priority, e.gate, e.discOwed, e.hold, e.owedCredit]), (5, 1, e.source.code), (6, 1, e.destPorts.toNat),
        (7, 1, e.destSlots.toNat), (8, 2, e.payload), (10, 1, e.width), (11, 4, e.interval), (15, 1, e.ageLimit),
        (16, 1, e.holdLimit), (17, 1, e.drainLimit), (18, 3, e.latency), (21, 2, e.initSeq.toNat), (23, 2, e.base),
        (25, 2, e.len), (27, 1, bits [e.stagedWin.isSome]), (28, 2, (e.stagedWin.map (·.1)).getD 0),
        (30, 2, (e.stagedWin.map (·.2)).getD 0), (32, 2, e.writePos), (34, 2, e.ring.length),
        (36, 1, bits [!e.ring.isEmpty]), (37, 2, (e.ring.head?.map (·.seq.toNat)).getD 0),
        (39, 2, (e.ring.getLast?.map (·.seq.toNat)).getD 0)] ∧
      (hasOpen e = false → fits body [(41, 1, 0), (42, 2, 0), (44, 2, 0), (46, 1, 0)]) ∧
      (∀ b, (e.outside = some b ∨ (e.outside = none ∧ e.ring.find? (·.isOpen) = some b)) →
        fits body [(41, 1, 1), (42, 2, b.seq.toNat), (44, 2, b.len / e.width), (46, 1, b.age)]) ∧
      fits body [(47, 2, e.nextSeq.toNat), (49, 2, e.nextExp.toNat), (51, 1, bits [e.lastAdv.isSome]),
        (52, 2, (e.lastAdv.map (·.toNat)).getD 0), (54, 1, e.holdCount), (55, 1, e.drainCount), (88, 4, c.created.toNat),
        (92, 4, c.retired.toNat), (96, 4, c.skipped.toNat), (100, 4, c.flushed.toNat), (104, 4, c.gated.toNat),
        (108, 4, c.unrouted.toNat), (112, 4, c.overrun.toNat), (116, 4, c.gaps.toNat), (120, 4, c.duplicates.toNat),
        (124, 4, c.overLimit.toNat)] ∧
      (∀ p : PortId, fits body [
        (56 + p.val, 1, if e.destPorts.getLsbD p.val = false then 0xFF else if e.abandonedPorts.getLsbD p.val then 2
          else if (s.port p).link = .active ∨ (s.port p).link = .draining then 0 else 1),
        (68 + 5 * p.val, 1, bits [e.credit[p].limit.isSome]), (69 + 5 * p.val, 2, (e.credit[p].limit.map (·.toNat)).getD 0),
        (71 + 5 * p.val, 1, e.credit[p].timeouts), (72 + 5 * p.val, 1, e.credit[p].queries)]) ∧
      ∀ k : SlotId, fits body [
        (60 + k.val, 1, if e.destSlots.getLsbD k.val = false then 0xFF else if (s.slot k).presence = .present then 0 else 1),
        (128 + 4 * k.val, 4, c.late[k].toNat)])) ∧
  ∀ (k : SlotId) (valid : Bool) (s : State),
    let q := s.slot k
    let c := q.counters
    let body := slotStatBody s k valid
    fits body [(0, 1, q.presence.code),
      (1, 1, bits [q.present, valid, State.holdLine s k, State.timingGood s k, q.playingFlag, q.underrun]),
      (2, 1, bits [q.debounce.isSome]), (4, 4, q.divider), (8, 2, q.phase), (10, 1, bits [q.stagedClk.isSome]),
      (11, 4, (q.stagedClk.map (·.1)).getD 0), (15, 2, (q.stagedClk.map (·.2)).getD 0), (17, 1, q.cfg.debounce),
      (18, 1, q.cfg.strobe.code), (19, 1, q.cfg.subscription.toNat),
      (20, 2, ((sourceEntry s k).map fun en => (s.entry en).rackId).getD 0),
      (22, 2, ((sinkEntry s k).map fun en => (s.entry en).rackId).getD 0), (24, 4, q.lastValue.toNat), (28, 1, q.lastWidth),
      (29, 1, bits [q.presenting.isSome]), (30, 2, (q.presenting.map (·.1.toNat)).getD 0),
      (32, 2, (q.presenting.map (·.2)).getD 0), (34, 1, bits [q.head.isSome]), (35, 2, (q.head.map (·.1.toNat)).getD 0),
      (37, 7, (q.head.map (·.2.toNat)).getD 0), (44, 4, c.instants.toNat), (48, 4, c.validReads.toNat),
      (52, 4, c.invalidReads.toNat), (56, 4, c.heldInstants.toNat), (60, 4, c.samplesOut.toNat), (64, 4, c.blocksOut.toNat),
      (68, 4, c.underruns.toNat), (72, 4, c.trigPulses.toNat), (76, 4, c.strobePulses.toNat)] ∧
    (q.debounce = none → fits body [(3, 1, 0)]) ∧ ∀ n, q.debounce = some (n * 125000) → fits body [(3, 1, n)]

/-- A cell written as bytes and received is the command of that cell with every field as it was, whenever its fields lie in their
ranges (read from the chapters, log 28). A good cell with a field out of its range, of a kind with no code, or whose body is not
of its kind's size is a cell of unknown kind; a cell cut short, that declares a body above 531 bytes, or whose CRC does not end at
0 is bad. A CRC register that has taken a message and then its own check field, high byte first, ends at 0; a message with one
byte changed does not give the same check field; and the check of the definition gives 0x29B1 (R78, R207). -/
def Obligations.CellsRoundTrip : Prop :=
  (∀ (p : ArrivalPort) (a : SubTick) (c : Cell), cellInRange c = true →
    arrivalCommand p a (encodeCell c) = cellCommand p a c) ∧
  (let fits : Cell → Prop := fun
      | .marker c => c.sender < 256 ∧ c.hop < 256 ∧ c.upstream < 256 ∧ c.epoch < 2 ^ 32
      | .probe c => c.sender < 256 ∧ c.attempt < 256 ∧ c.index < 256
      | .echo c => c.responder < 256 ∧ c.sender < 256 ∧ c.attempt < 256 ∧ c.index < 256
      | .credit c => c.rackId < 65536
      | .query r => r < 65536
      | .trigger c => c.hop < 256
      | .cancel c => c.hop < 256
      | .quiesce => True
      | .resume => True
      | .sample c => c.rackId < 65536 ∧ c.payload.length ≤ 512 ∧ c.extraMarks < 256
    ∀ (p : ArrivalPort) (a : SubTick) (c : Cell), fits c → cellInRange c = false →
      arrivalCommand p a (encodeCell c) = .cellUnknownKind p) ∧
  (∀ (p : ArrivalPort) (a : SubTick) (kind : Byte) (body : List Byte), body.length ≤ 531 →
    let head := kind :: beBytes 2 body.length ++ body
    let sizes := [(0x01, 16), (0x02, 11), (0x03, 20), (0x10, 4), (0x11, 2), (0x12, 11), (0x13, 3), (0x14, 0), (0x15, 0)]
    let fitsKind := (kind.toNat, body.length) ∈ sizes ∨
      (kind.toNat = 0x20 ∧ 19 < body.length ∧ ofBytes ((body.drop 17).take 2) = body.length - 19)
    ¬fitsKind → arrivalCommand p a (head ++ beBytes 2 (linkCrc head).toNat) = .cellUnknownKind p) ∧
  (∀ (p : ArrivalPort) (a : SubTick) (kind : Byte) (n : Nat) (rest : List Byte), n < 65536 →
    (531 < n ∨ rest.length < n + 2 ∨ linkCrc (kind :: beBytes 2 n ++ rest.take (n + 2)) ≠ 0) →
      arrivalCommand p a (kind :: beBytes 2 n ++ rest) = .cellBadCrc p) ∧
  (∀ (p : ArrivalPort) (a : SubTick) (bs : List Byte), bs.length < 3 → arrivalCommand p a bs = .cellBadCrc p) ∧
  ((∀ bs : List Byte, linkCrc (bs ++ beBytes 2 (linkCrc bs).toNat) = 0) ∧
  (∀ (front back : List Byte) (b c : Byte), b ≠ c → linkCrc (front ++ b :: back) ≠ linkCrc (front ++ c :: back)) ∧
  linkCrc [0x31, 0x32, 0x33, 0x34, 0x35, 0x36, 0x37, 0x38, 0x39] = 0x29B1#16)
end

