-- ==== Sys2Proof/Laws/State.lean ====
section
/-! SUPPORT. What each record update of the state leaves and sets, one lemma per field per update, true by unfolding. -/
namespace Sys2Proof.Machine

/-! ### `State.updTb` -/

@[simp] theorem State.updTb_tb (f : Timebase → Timebase) (s : State) : (s.updTb f).tb = f s.tb := rfl
@[simp] theorem State.updTb_win (f : Timebase → Timebase) (s : State) : (s.updTb f).win = s.win := rfl
@[simp] theorem State.updTb_org (f : Timebase → Timebase) (s : State) : (s.updTb f).org = s.org := rfl
@[simp] theorem State.updTb_ports (f : Timebase → Timebase) (s : State) : (s.updTb f).ports = s.ports := rfl
@[simp] theorem State.updTb_xmit (f : Timebase → Timebase) (s : State) : (s.updTb f).xmit = s.xmit := rfl
@[simp] theorem State.updTb_entries (f : Timebase → Timebase) (s : State) : (s.updTb f).entries = s.entries := rfl
@[simp] theorem State.updTb_buffer (f : Timebase → Timebase) (s : State) : (s.updTb f).buffer = s.buffer := rfl
@[simp] theorem State.updTb_slots (f : Timebase → Timebase) (s : State) : (s.updTb f).slots = s.slots := rfl
@[simp] theorem State.updTb_trg (f : Timebase → Timebase) (s : State) : (s.updTb f).trg = s.trg := rfl
@[simp] theorem State.updTb_mgmt (f : Timebase → Timebase) (s : State) : (s.updTb f).mgmt = s.mgmt := rfl
@[simp] theorem State.updTb_inReset (f : Timebase → Timebase) (s : State) : (s.updTb f).inReset = s.inReset := rfl
@[simp] theorem State.updTb_pending (f : Timebase → Timebase) (s : State) : (s.updTb f).pending = s.pending := rfl

/-! ### `State.updWin` -/

@[simp] theorem State.updWin_tb (f : WindowUnit → WindowUnit) (s : State) : (s.updWin f).tb = s.tb := rfl
@[simp] theorem State.updWin_win (f : WindowUnit → WindowUnit) (s : State) : (s.updWin f).win = f s.win := rfl
@[simp] theorem State.updWin_org (f : WindowUnit → WindowUnit) (s : State) : (s.updWin f).org = s.org := rfl
@[simp] theorem State.updWin_ports (f : WindowUnit → WindowUnit) (s : State) : (s.updWin f).ports = s.ports := rfl
@[simp] theorem State.updWin_xmit (f : WindowUnit → WindowUnit) (s : State) : (s.updWin f).xmit = s.xmit := rfl
@[simp] theorem State.updWin_entries (f : WindowUnit → WindowUnit) (s : State) : (s.updWin f).entries = s.entries := rfl
@[simp] theorem State.updWin_buffer (f : WindowUnit → WindowUnit) (s : State) : (s.updWin f).buffer = s.buffer := rfl
@[simp] theorem State.updWin_slots (f : WindowUnit → WindowUnit) (s : State) : (s.updWin f).slots = s.slots := rfl
@[simp] theorem State.updWin_trg (f : WindowUnit → WindowUnit) (s : State) : (s.updWin f).trg = s.trg := rfl
@[simp] theorem State.updWin_mgmt (f : WindowUnit → WindowUnit) (s : State) : (s.updWin f).mgmt = s.mgmt := rfl
@[simp] theorem State.updWin_inReset (f : WindowUnit → WindowUnit) (s : State) : (s.updWin f).inReset = s.inReset := rfl
@[simp] theorem State.updWin_pending (f : WindowUnit → WindowUnit) (s : State) : (s.updWin f).pending = s.pending := rfl

/-! ### `State.updOrg` -/

@[simp] theorem State.updOrg_tb (f : Origin → Origin) (s : State) : (s.updOrg f).tb = s.tb := rfl
@[simp] theorem State.updOrg_win (f : Origin → Origin) (s : State) : (s.updOrg f).win = s.win := rfl
@[simp] theorem State.updOrg_org (f : Origin → Origin) (s : State) : (s.updOrg f).org = f s.org := rfl
@[simp] theorem State.updOrg_ports (f : Origin → Origin) (s : State) : (s.updOrg f).ports = s.ports := rfl
@[simp] theorem State.updOrg_xmit (f : Origin → Origin) (s : State) : (s.updOrg f).xmit = s.xmit := rfl
@[simp] theorem State.updOrg_entries (f : Origin → Origin) (s : State) : (s.updOrg f).entries = s.entries := rfl
@[simp] theorem State.updOrg_buffer (f : Origin → Origin) (s : State) : (s.updOrg f).buffer = s.buffer := rfl
@[simp] theorem State.updOrg_slots (f : Origin → Origin) (s : State) : (s.updOrg f).slots = s.slots := rfl
@[simp] theorem State.updOrg_trg (f : Origin → Origin) (s : State) : (s.updOrg f).trg = s.trg := rfl
@[simp] theorem State.updOrg_mgmt (f : Origin → Origin) (s : State) : (s.updOrg f).mgmt = s.mgmt := rfl
@[simp] theorem State.updOrg_inReset (f : Origin → Origin) (s : State) : (s.updOrg f).inReset = s.inReset := rfl
@[simp] theorem State.updOrg_pending (f : Origin → Origin) (s : State) : (s.updOrg f).pending = s.pending := rfl

/-! ### `State.updTrg` -/

@[simp] theorem State.updTrg_tb (f : TriggerUnit → TriggerUnit) (s : State) : (s.updTrg f).tb = s.tb := rfl
@[simp] theorem State.updTrg_win (f : TriggerUnit → TriggerUnit) (s : State) : (s.updTrg f).win = s.win := rfl
@[simp] theorem State.updTrg_org (f : TriggerUnit → TriggerUnit) (s : State) : (s.updTrg f).org = s.org := rfl
@[simp] theorem State.updTrg_ports (f : TriggerUnit → TriggerUnit) (s : State) : (s.updTrg f).ports = s.ports := rfl
@[simp] theorem State.updTrg_xmit (f : TriggerUnit → TriggerUnit) (s : State) : (s.updTrg f).xmit = s.xmit := rfl
@[simp] theorem State.updTrg_entries (f : TriggerUnit → TriggerUnit) (s : State) : (s.updTrg f).entries = s.entries := rfl
@[simp] theorem State.updTrg_buffer (f : TriggerUnit → TriggerUnit) (s : State) : (s.updTrg f).buffer = s.buffer := rfl
@[simp] theorem State.updTrg_slots (f : TriggerUnit → TriggerUnit) (s : State) : (s.updTrg f).slots = s.slots := rfl
@[simp] theorem State.updTrg_trg (f : TriggerUnit → TriggerUnit) (s : State) : (s.updTrg f).trg = f s.trg := rfl
@[simp] theorem State.updTrg_mgmt (f : TriggerUnit → TriggerUnit) (s : State) : (s.updTrg f).mgmt = s.mgmt := rfl
@[simp] theorem State.updTrg_inReset (f : TriggerUnit → TriggerUnit) (s : State) : (s.updTrg f).inReset = s.inReset := rfl
@[simp] theorem State.updTrg_pending (f : TriggerUnit → TriggerUnit) (s : State) : (s.updTrg f).pending = s.pending := rfl

/-! ### `State.updMgmt` -/

@[simp] theorem State.updMgmt_tb (f : Mgmt → Mgmt) (s : State) : (s.updMgmt f).tb = s.tb := rfl
@[simp] theorem State.updMgmt_win (f : Mgmt → Mgmt) (s : State) : (s.updMgmt f).win = s.win := rfl
@[simp] theorem State.updMgmt_org (f : Mgmt → Mgmt) (s : State) : (s.updMgmt f).org = s.org := rfl
@[simp] theorem State.updMgmt_ports (f : Mgmt → Mgmt) (s : State) : (s.updMgmt f).ports = s.ports := rfl
@[simp] theorem State.updMgmt_xmit (f : Mgmt → Mgmt) (s : State) : (s.updMgmt f).xmit = s.xmit := rfl
@[simp] theorem State.updMgmt_entries (f : Mgmt → Mgmt) (s : State) : (s.updMgmt f).entries = s.entries := rfl
@[simp] theorem State.updMgmt_buffer (f : Mgmt → Mgmt) (s : State) : (s.updMgmt f).buffer = s.buffer := rfl
@[simp] theorem State.updMgmt_slots (f : Mgmt → Mgmt) (s : State) : (s.updMgmt f).slots = s.slots := rfl
@[simp] theorem State.updMgmt_trg (f : Mgmt → Mgmt) (s : State) : (s.updMgmt f).trg = s.trg := rfl
@[simp] theorem State.updMgmt_mgmt (f : Mgmt → Mgmt) (s : State) : (s.updMgmt f).mgmt = f s.mgmt := rfl
@[simp] theorem State.updMgmt_inReset (f : Mgmt → Mgmt) (s : State) : (s.updMgmt f).inReset = s.inReset := rfl
@[simp] theorem State.updMgmt_pending (f : Mgmt → Mgmt) (s : State) : (s.updMgmt f).pending = s.pending := rfl

/-! ### `State.updPort` -/

@[simp] theorem State.updPort_tb (p : PortId) (f : Port → Port) (s : State) : (s.updPort p f).tb = s.tb := rfl
@[simp] theorem State.updPort_win (p : PortId) (f : Port → Port) (s : State) : (s.updPort p f).win = s.win := rfl
@[simp] theorem State.updPort_org (p : PortId) (f : Port → Port) (s : State) : (s.updPort p f).org = s.org := rfl
theorem State.updPort_ports (p : PortId) (f : Port → Port) (s : State) :
    (s.updPort p f).ports = s.ports.set p (f s.ports[p]) := rfl
@[simp] theorem State.updPort_xmit (p : PortId) (f : Port → Port) (s : State) : (s.updPort p f).xmit = s.xmit := rfl
@[simp] theorem State.updPort_entries (p : PortId) (f : Port → Port) (s : State) : (s.updPort p f).entries = s.entries := rfl
@[simp] theorem State.updPort_buffer (p : PortId) (f : Port → Port) (s : State) : (s.updPort p f).buffer = s.buffer := rfl
@[simp] theorem State.updPort_slots (p : PortId) (f : Port → Port) (s : State) : (s.updPort p f).slots = s.slots := rfl
@[simp] theorem State.updPort_trg (p : PortId) (f : Port → Port) (s : State) : (s.updPort p f).trg = s.trg := rfl
@[simp] theorem State.updPort_mgmt (p : PortId) (f : Port → Port) (s : State) : (s.updPort p f).mgmt = s.mgmt := rfl
@[simp] theorem State.updPort_inReset (p : PortId) (f : Port → Port) (s : State) : (s.updPort p f).inReset = s.inReset := rfl
@[simp] theorem State.updPort_pending (p : PortId) (f : Port → Port) (s : State) : (s.updPort p f).pending = s.pending := rfl

/-! ### `State.updEntry` -/

@[simp] theorem State.updEntry_tb (en : EntryId) (f : Entry → Entry) (s : State) : (s.updEntry en f).tb = s.tb := rfl
@[simp] theorem State.updEntry_win (en : EntryId) (f : Entry → Entry) (s : State) : (s.updEntry en f).win = s.win := rfl
@[simp] theorem State.updEntry_org (en : EntryId) (f : Entry → Entry) (s : State) : (s.updEntry en f).org = s.org := rfl
@[simp] theorem State.updEntry_ports (en : EntryId) (f : Entry → Entry) (s : State) : (s.updEntry en f).ports = s.ports := rfl
@[simp] theorem State.updEntry_xmit (en : EntryId) (f : Entry → Entry) (s : State) : (s.updEntry en f).xmit = s.xmit := rfl
theorem State.updEntry_entries (en : EntryId) (f : Entry → Entry) (s : State) :
    (s.updEntry en f).entries = s.entries.set en (f s.entries[en]) := rfl
@[simp] theorem State.updEntry_buffer (en : EntryId) (f : Entry → Entry) (s : State) : (s.updEntry en f).buffer = s.buffer := rfl
@[simp] theorem State.updEntry_slots (en : EntryId) (f : Entry → Entry) (s : State) : (s.updEntry en f).slots = s.slots := rfl
@[simp] theorem State.updEntry_trg (en : EntryId) (f : Entry → Entry) (s : State) : (s.updEntry en f).trg = s.trg := rfl
@[simp] theorem State.updEntry_mgmt (en : EntryId) (f : Entry → Entry) (s : State) : (s.updEntry en f).mgmt = s.mgmt := rfl
@[simp] theorem State.updEntry_inReset (en : EntryId) (f : Entry → Entry) (s : State) : (s.updEntry en f).inReset = s.inReset := rfl
@[simp] theorem State.updEntry_pending (en : EntryId) (f : Entry → Entry) (s : State) : (s.updEntry en f).pending = s.pending := rfl

/-! ### `State.updSlot` -/

@[simp] theorem State.updSlot_tb (k : SlotId) (f : Slot → Slot) (s : State) : (s.updSlot k f).tb = s.tb := rfl
@[simp] theorem State.updSlot_win (k : SlotId) (f : Slot → Slot) (s : State) : (s.updSlot k f).win = s.win := rfl
@[simp] theorem State.updSlot_org (k : SlotId) (f : Slot → Slot) (s : State) : (s.updSlot k f).org = s.org := rfl
@[simp] theorem State.updSlot_ports (k : SlotId) (f : Slot → Slot) (s : State) : (s.updSlot k f).ports = s.ports := rfl
@[simp] theorem State.updSlot_xmit (k : SlotId) (f : Slot → Slot) (s : State) : (s.updSlot k f).xmit = s.xmit := rfl
@[simp] theorem State.updSlot_entries (k : SlotId) (f : Slot → Slot) (s : State) : (s.updSlot k f).entries = s.entries := rfl
@[simp] theorem State.updSlot_buffer (k : SlotId) (f : Slot → Slot) (s : State) : (s.updSlot k f).buffer = s.buffer := rfl
theorem State.updSlot_slots (k : SlotId) (f : Slot → Slot) (s : State) :
    (s.updSlot k f).slots = s.slots.set k (f s.slots[k]) := rfl
@[simp] theorem State.updSlot_trg (k : SlotId) (f : Slot → Slot) (s : State) : (s.updSlot k f).trg = s.trg := rfl
@[simp] theorem State.updSlot_mgmt (k : SlotId) (f : Slot → Slot) (s : State) : (s.updSlot k f).mgmt = s.mgmt := rfl
@[simp] theorem State.updSlot_inReset (k : SlotId) (f : Slot → Slot) (s : State) : (s.updSlot k f).inReset = s.inReset := rfl
@[simp] theorem State.updSlot_pending (k : SlotId) (f : Slot → Slot) (s : State) : (s.updSlot k f).pending = s.pending := rfl

/-! ### One record of a table -/

/-- The record updated is the one named. -/
@[simp] theorem State.updPort_port (p : PortId) (f : Port → Port) (s : State) : (s.updPort p f).port p = f (s.port p) := by
  simp [State.port, State.updPort]

/-- No other record is updated. -/
theorem State.updPort_port_ne {p x : PortId} (h : x ≠ p) (f : Port → Port) (s : State) :
    (s.updPort p f).port x = s.port x := by
  have : p.val ≠ x.val := fun e => h (Fin.ext e.symm)
  simp [State.port, State.updPort, this]

@[simp] theorem State.updTb_port (f : Timebase → Timebase) (p : PortId) (s : State) :
    (s.updTb f).port p = s.port p := rfl
@[simp] theorem State.updWin_port (f : WindowUnit → WindowUnit) (p : PortId) (s : State) :
    (s.updWin f).port p = s.port p := rfl
@[simp] theorem State.updOrg_port (f : Origin → Origin) (p : PortId) (s : State) :
    (s.updOrg f).port p = s.port p := rfl
@[simp] theorem State.updTrg_port (f : TriggerUnit → TriggerUnit) (p : PortId) (s : State) :
    (s.updTrg f).port p = s.port p := rfl
@[simp] theorem State.updMgmt_port (f : Mgmt → Mgmt) (p : PortId) (s : State) :
    (s.updMgmt f).port p = s.port p := rfl
@[simp] theorem State.updEntry_port (em : EntryId) (f : Entry → Entry) (p : PortId) (s : State) :
    (s.updEntry em f).port p = s.port p := rfl
@[simp] theorem State.updSlot_port (j : SlotId) (f : Slot → Slot) (p : PortId) (s : State) :
    (s.updSlot j f).port p = s.port p := rfl

/-- The record updated is the one named. -/
@[simp] theorem State.updEntry_entry (en : EntryId) (f : Entry → Entry) (s : State) : (s.updEntry en f).entry en = f (s.entry en) := by
  simp [State.entry, State.updEntry]

/-- No other record is updated. -/
theorem State.updEntry_entry_ne {en x : EntryId} (h : x ≠ en) (f : Entry → Entry) (s : State) :
    (s.updEntry en f).entry x = s.entry x := by
  have : en.val ≠ x.val := fun e => h (Fin.ext e.symm)
  simp [State.entry, State.updEntry, this]

@[simp] theorem State.updTb_entry (f : Timebase → Timebase) (en : EntryId) (s : State) :
    (s.updTb f).entry en = s.entry en := rfl
@[simp] theorem State.updWin_entry (f : WindowUnit → WindowUnit) (en : EntryId) (s : State) :
    (s.updWin f).entry en = s.entry en := rfl
@[simp] theorem State.updOrg_entry (f : Origin → Origin) (en : EntryId) (s : State) :
    (s.updOrg f).entry en = s.entry en := rfl
@[simp] theorem State.updTrg_entry (f : TriggerUnit → TriggerUnit) (en : EntryId) (s : State) :
    (s.updTrg f).entry en = s.entry en := rfl
@[simp] theorem State.updMgmt_entry (f : Mgmt → Mgmt) (en : EntryId) (s : State) :
    (s.updMgmt f).entry en = s.entry en := rfl
@[simp] theorem State.updPort_entry (q : PortId) (f : Port → Port) (en : EntryId) (s : State) :
    (s.updPort q f).entry en = s.entry en := rfl
@[simp] theorem State.updSlot_entry (j : SlotId) (f : Slot → Slot) (en : EntryId) (s : State) :
    (s.updSlot j f).entry en = s.entry en := rfl

/-- The record updated is the one named. -/
@[simp] theorem State.updSlot_slot (k : SlotId) (f : Slot → Slot) (s : State) : (s.updSlot k f).slot k = f (s.slot k) := by
  simp [State.slot, State.updSlot]

/-- No other record is updated. -/
theorem State.updSlot_slot_ne {k x : SlotId} (h : x ≠ k) (f : Slot → Slot) (s : State) :
    (s.updSlot k f).slot x = s.slot x := by
  have : k.val ≠ x.val := fun e => h (Fin.ext e.symm)
  simp [State.slot, State.updSlot, this]

@[simp] theorem State.updTb_slot (f : Timebase → Timebase) (k : SlotId) (s : State) :
    (s.updTb f).slot k = s.slot k := rfl
@[simp] theorem State.updWin_slot (f : WindowUnit → WindowUnit) (k : SlotId) (s : State) :
    (s.updWin f).slot k = s.slot k := rfl
@[simp] theorem State.updOrg_slot (f : Origin → Origin) (k : SlotId) (s : State) :
    (s.updOrg f).slot k = s.slot k := rfl
@[simp] theorem State.updTrg_slot (f : TriggerUnit → TriggerUnit) (k : SlotId) (s : State) :
    (s.updTrg f).slot k = s.slot k := rfl
@[simp] theorem State.updMgmt_slot (f : Mgmt → Mgmt) (k : SlotId) (s : State) :
    (s.updMgmt f).slot k = s.slot k := rfl
@[simp] theorem State.updPort_slot (q : PortId) (f : Port → Port) (k : SlotId) (s : State) :
    (s.updPort q f).slot k = s.slot k := rfl
@[simp] theorem State.updEntry_slot (em : EntryId) (f : Entry → Entry) (k : SlotId) (s : State) :
    (s.updEntry em f).slot k = s.slot k := rfl

/-! ### Answers -/

@[simp] theorem State.reply_tb (st : Status) (body : List Byte) (s : State) : (s.reply st body).tb = s.tb := rfl
@[simp] theorem State.reply_win (st : Status) (body : List Byte) (s : State) : (s.reply st body).win = s.win := rfl
@[simp] theorem State.reply_org (st : Status) (body : List Byte) (s : State) : (s.reply st body).org = s.org := rfl
@[simp] theorem State.reply_ports (st : Status) (body : List Byte) (s : State) : (s.reply st body).ports = s.ports := rfl
@[simp] theorem State.reply_xmit (st : Status) (body : List Byte) (s : State) : (s.reply st body).xmit = s.xmit := rfl
@[simp] theorem State.reply_entries (st : Status) (body : List Byte) (s : State) : (s.reply st body).entries = s.entries := rfl
@[simp] theorem State.reply_buffer (st : Status) (body : List Byte) (s : State) : (s.reply st body).buffer = s.buffer := rfl
@[simp] theorem State.reply_slots (st : Status) (body : List Byte) (s : State) : (s.reply st body).slots = s.slots := rfl
@[simp] theorem State.reply_trg (st : Status) (body : List Byte) (s : State) : (s.reply st body).trg = s.trg := rfl
@[simp] theorem State.reply_mgmt (st : Status) (body : List Byte) (s : State) :
    (s.reply st body).mgmt = { s.mgmt with answer := some { status := st, body := body } } := rfl
@[simp] theorem State.reply_inReset (st : Status) (body : List Byte) (s : State) : (s.reply st body).inReset = s.inReset := rfl
@[simp] theorem State.reply_pending (st : Status) (body : List Byte) (s : State) : (s.reply st body).pending = s.pending := rfl
@[simp] theorem State.reply_port (st : Status) (body : List Byte) (p : PortId) (s : State) :
    (s.reply st body).port p = s.port p := rfl
@[simp] theorem State.reply_entry (st : Status) (body : List Byte) (en : EntryId) (s : State) :
    (s.reply st body).entry en = s.entry en := rfl
@[simp] theorem State.reply_slot (st : Status) (body : List Byte) (k : SlotId) (s : State) :
    (s.reply st body).slot k = s.slot k := rfl

/-! ### The level of RESET (R200) -/

/-- Out of reset a command has its effect. -/
@[simp] theorem unlessReset_out {s : State} (h : s.inReset = false) (f : State → State) :
    unlessReset s f = .next (f s) := by simp [unlessReset, h]

/-- While RESET is asserted it has none. -/
@[simp] theorem unlessReset_held {s : State} (h : s.inReset = true) (f : State → State) : unlessReset s f = .next s := by
  simp [unlessReset, h]

/-- What a command gated by RESET can answer: its effect, or nothing changed. -/
theorem unlessReset_next {s t : State} {f : State → State} (h : unlessReset s f = .next t) :
    (s.inReset = false ∧ t = f s) ∨ (s.inReset = true ∧ t = s) := by
  cases e : s.inReset <;> simp_all [unlessReset]

/-- A refusal is an answer with an empty body. -/
theorem State.refuse_eq (st : Status) (s : State) : s.refuse st = s.reply st [] := rfl

/-- An acceptance is the answer OK with an empty body. -/
theorem State.accept_eq (s : State) : s.accept = s.reply .ok [] := rfl

end Sys2Proof.Machine
end

