-- ==== Sys2Proof/Laws/Bytes.lean ====
section
/-! SUPPORT. The laws of numbers as bytes, most significant first: lengths, and that the bytes of a number spell it. -/
namespace Sys2Proof.Machine

/-! ### Bytes of a number -/

@[simp] theorem beBytes_length (n v : Nat) : (beBytes n v).length = n := by
  induction n with
  | zero => rfl
  | succ n ih => simp [beBytes, ih]

@[simp] theorem beSigned_length (n : Nat) (v : Int) : (beSigned n v).length = n := by simp [beSigned]

theorem ofBytes_append (xs ys : List Byte) : ofBytes (xs ++ ys) = ofBytes xs * 256 ^ ys.length + ofBytes ys := by
  induction ys using List.reverseRecOn with
  | nil => simp [ofBytes]
  | append_singleton ys y ih =>
    have e : ofBytes (xs ++ (ys ++ [y])) = ofBytes (xs ++ ys) * 256 + y.toNat := by
      simp [ofBytes, ← List.append_assoc, List.foldl_append]
    have e' : ofBytes (ys ++ [y]) = ofBytes ys * 256 + y.toNat := by simp [ofBytes, List.foldl_append]
    rw [e, e', ih]
    simp only [List.length_append, List.length_cons, List.length_nil, pow_succ]
    ring

/-- The bytes of a number that fits them spell it. -/
theorem ofBytes_beBytes {n v : Nat} (h : v < 256 ^ n) : ofBytes (beBytes n v) = v := by
  induction n generalizing v with
  | zero => simp [beBytes, ofBytes]; omega
  | succ n ih =>
    have hm : beBytes n v = beBytes n (v % 256 ^ n) := by
      clear ih h
      have key : ∀ m v : Nat, ∀ k, m ≤ k → beBytes m v = beBytes m (v % 256 ^ k) := by
        intro m
        induction m with
        | zero => intros; rfl
        | succ m ihm =>
          intro v k hk
          obtain ⟨d, rfl⟩ := Nat.exists_eq_add_of_le hk
          simp only [beBytes]
          refine congrArg₂ List.cons ?_ (ihm v _ (by omega))
          apply BitVec.eq_of_toNat_eq
          simp only [BitVec.toNat_ofNat]
          have e : 256 ^ (m + 1 + d) = 256 ^ m * (256 * 256 ^ d) := by ring
          rw [e, Nat.mod_mul_right_div_self]
          norm_num [Nat.mod_mul_right_mod]
      exact key n v n (Nat.le_refl n)
    have hsplit : beBytes (n + 1) v = [BitVec.ofNat 8 (v / 256 ^ n)] ++ beBytes n (v % 256 ^ n) := by
      rw [← hm]; rfl
    rw [hsplit, ofBytes_append, ih (Nat.mod_lt _ (by positivity)), beBytes_length]
    have h1 : v / 256 ^ n < 256 := by
      rw [Nat.div_lt_iff_lt_mul (by positivity)]
      simpa [pow_succ, Nat.mul_comm] using h
    have h2 : ofBytes [BitVec.ofNat 8 (v / 256 ^ n)] = v / 256 ^ n := by
      simp [ofBytes, Nat.mod_eq_of_lt h1]
    rw [h2]
    have h3 := Nat.div_add_mod v (256 ^ n)
    rw [Nat.mul_comm] at h3
    exact h3

end Sys2Proof.Machine
end

