-- ==== Sys2Proof/Laws/Frames.lean ====
section
/-! SUPPORT. What each shared operation leaves as it was: one lemma per operation, for the fields of the state it does
not move. A statement about a command cites these in place of unfolding the operations it calls. -/
namespace Sys2Proof.Machine

-- One theorem after another: many at once each hold a thread, and the package compiles under a memory limit.
set_option Elab.async false

/-! ### Loops -/

theorem foldl_keeps {ι α : Type} (g : State → α) {f : ι → State → State} (h : ∀ x s, g (f x s) = g s)
    (l : List ι) (s : State) : g (l.foldl (fun s x => f x s) s) = g s := by
  induction l generalizing s with
  | nil => rfl
  | cons x l ih => rw [List.foldl_cons, ih, h]

/-- What every round of the loop keeps, the loop keeps. -/
theorem forPorts_keeps {α : Type} (g : State → α) {f : PortId → State → State} (h : ∀ x s, g (f x s) = g s)
    (s : State) : g (forPorts f s) = g s := foldl_keeps g h allPorts s

/-- What every round of the loop keeps, the loop keeps. -/
theorem forSlots_keeps {α : Type} (g : State → α) {f : SlotId → State → State} (h : ∀ x s, g (f x s) = g s)
    (s : State) : g (forSlots f s) = g s := foldl_keeps g h allSlots s

/-- What every round of the loop keeps, the loop keeps. -/
theorem forEntries_keeps {α : Type} (g : State → α) {f : EntryId → State → State} (h : ∀ x s, g (f x s) = g s)
    (s : State) : g (forEntries f s) = g s := foldl_keeps g h allEntries s

/-! ### Cells received, and the windows of the probes (R78, R82) -/

/-- A cell that began while its port took cells does what its kind does. -/
@[simp] theorem whenBegun_begun (p : PortId) (f : PortId → State → State) (s : State) :
    whenBegun ⟨p, true⟩ f s = f p s := rfl

/-- A cell that began while its port took none does nothing. -/
@[simp] theorem whenBegun_discarded (p : PortId) (f : PortId → State → State) (s : State) :
    whenBegun ⟨p, false⟩ f s = s := rfl

/-- The close of a window takes away the outstanding probe of that index, and no other. -/
theorem closeWindow_eq (k : Nat) (o : Option (Nat × SubTick)) :
    closeWindow k o = if o.map (·.1) = some k then none else o := by
  cases o with
  | none => rfl
  | some x => simp [closeWindow]

/-- The departure of a PROBE moves nothing of the training record but the outstanding probe and the count of earlier ones. -/
theorem probeLeaves_frame (r : SubTick) (q : Port) (a i : Nat) :
    probeLeaves r q a i = { q.train with
      outstanding := (probeLeaves r q a i).outstanding, earlier := (probeLeaves r q a i).earlier } := by
  simp only [probeLeaves]
  (repeat' split) <;> rfl

/-- The count of the PROBE cells that wait is at most the length of the queue. -/
theorem probesWaiting_le (cs : List TimingCell) : probesWaiting cs ≤ cs.length := List.length_filter_le _ _

/-! ### Notices and queues (Ops) -/

/-- `raiseNotice` moves nothing but the management port. -/
@[simp] theorem raiseNotice_frame (k : NoticeKind) (n : Nat) (d x : Int) (s : State) :
    (raiseNotice k n d x s).tb = s.tb ∧ (raiseNotice k n d x s).win = s.win ∧
    (raiseNotice k n d x s).org = s.org ∧ (raiseNotice k n d x s).ports = s.ports ∧
    (raiseNotice k n d x s).xmit = s.xmit ∧ (raiseNotice k n d x s).entries = s.entries ∧
    (raiseNotice k n d x s).buffer = s.buffer ∧ (raiseNotice k n d x s).slots = s.slots ∧
    (raiseNotice k n d x s).trg = s.trg ∧ (raiseNotice k n d x s).inReset = s.inReset ∧
    (raiseNotice k n d x s).pending = s.pending := by
  simp only [raiseNotice]
  (repeat' split) <;> simp

/-- `pushControl` moves nothing but the ports. -/
@[simp] theorem pushControl_frame (p : PortId) (c : ControlCell) (s : State) :
    (pushControl p c s).tb = s.tb ∧ (pushControl p c s).win = s.win ∧ (pushControl p c s).org = s.org ∧
    (pushControl p c s).xmit = s.xmit ∧ (pushControl p c s).entries = s.entries ∧
    (pushControl p c s).buffer = s.buffer ∧ (pushControl p c s).slots = s.slots ∧
    (pushControl p c s).trg = s.trg ∧ (pushControl p c s).mgmt = s.mgmt ∧
    (pushControl p c s).inReset = s.inReset ∧ (pushControl p c s).pending = s.pending := by
  simp [pushControl]

/-- `withdraw` moves nothing but the ports. -/
@[simp] theorem withdraw_frame (p : PortId) (f : ControlCell → Bool) (s : State) :
    (withdraw p f s).tb = s.tb ∧ (withdraw p f s).win = s.win ∧ (withdraw p f s).org = s.org ∧
    (withdraw p f s).xmit = s.xmit ∧ (withdraw p f s).entries = s.entries ∧ (withdraw p f s).buffer = s.buffer ∧
    (withdraw p f s).slots = s.slots ∧ (withdraw p f s).trg = s.trg ∧ (withdraw p f s).mgmt = s.mgmt ∧
    (withdraw p f s).inReset = s.inReset ∧ (withdraw p f s).pending = s.pending := by
  simp [withdraw]

/-- `offerTiming` moves nothing but the ports. -/
@[simp] theorem offerTiming_frame (p : PortId) (c : TimingCell) (s : State) :
    (offerTiming p c s).tb = s.tb ∧ (offerTiming p c s).win = s.win ∧ (offerTiming p c s).org = s.org ∧
    (offerTiming p c s).xmit = s.xmit ∧ (offerTiming p c s).entries = s.entries ∧
    (offerTiming p c s).buffer = s.buffer ∧ (offerTiming p c s).slots = s.slots ∧
    (offerTiming p c s).trg = s.trg ∧ (offerTiming p c s).mgmt = s.mgmt ∧
    (offerTiming p c s).inReset = s.inReset ∧ (offerTiming p c s).pending = s.pending := by
  simp only [offerTiming]
  (repeat' split) <;> simp

/-- `offerMarker` moves nothing but the ports. -/
@[simp] theorem offerMarker_frame (p : PortId) (s : State) :
    (offerMarker p s).tb = s.tb ∧ (offerMarker p s).win = s.win ∧ (offerMarker p s).org = s.org ∧
    (offerMarker p s).xmit = s.xmit ∧ (offerMarker p s).entries = s.entries ∧
    (offerMarker p s).buffer = s.buffer ∧ (offerMarker p s).slots = s.slots ∧ (offerMarker p s).trg = s.trg ∧
    (offerMarker p s).mgmt = s.mgmt ∧ (offerMarker p s).inReset = s.inReset ∧
    (offerMarker p s).pending = s.pending := by
  simp only [offerMarker]
  (repeat' split) <;> simp

/-- `emptyQueues` moves nothing but the ports. -/
@[simp] theorem emptyQueues_frame (p : PortId) (s : State) :
    (emptyQueues p s).tb = s.tb ∧ (emptyQueues p s).win = s.win ∧ (emptyQueues p s).org = s.org ∧
    (emptyQueues p s).xmit = s.xmit ∧ (emptyQueues p s).entries = s.entries ∧
    (emptyQueues p s).buffer = s.buffer ∧ (emptyQueues p s).slots = s.slots ∧ (emptyQueues p s).trg = s.trg ∧
    (emptyQueues p s).mgmt = s.mgmt ∧ (emptyQueues p s).inReset = s.inReset ∧
    (emptyQueues p s).pending = s.pending := by
  simp [emptyQueues]

/-- `strobe` moves nothing but the slots. -/
@[simp] theorem strobe_frame (k : SlotId) (s : State) :
    (strobe k s).tb = s.tb ∧ (strobe k s).win = s.win ∧ (strobe k s).org = s.org ∧
    (strobe k s).ports = s.ports ∧ (strobe k s).xmit = s.xmit ∧ (strobe k s).entries = s.entries ∧
    (strobe k s).buffer = s.buffer ∧ (strobe k s).trg = s.trg ∧ (strobe k s).mgmt = s.mgmt ∧
    (strobe k s).inReset = s.inReset ∧ (strobe k s).pending = s.pending := by
  simp [strobe]

/-- `strobeAtClose` moves nothing but the slots. -/
@[simp] theorem strobeAtClose_frame (src : Source) (s : State) :
    (strobeAtClose src s).tb = s.tb ∧ (strobeAtClose src s).win = s.win ∧ (strobeAtClose src s).org = s.org ∧
    (strobeAtClose src s).ports = s.ports ∧ (strobeAtClose src s).xmit = s.xmit ∧
    (strobeAtClose src s).entries = s.entries ∧ (strobeAtClose src s).buffer = s.buffer ∧
    (strobeAtClose src s).trg = s.trg ∧ (strobeAtClose src s).mgmt = s.mgmt ∧
    (strobeAtClose src s).inReset = s.inReset ∧ (strobeAtClose src s).pending = s.pending := by
  simp only [strobeAtClose]
  (repeat' split) <;> simp

/-! ### Credit cells, presentations and flights (Streams) -/

/-- `offerCredit` moves nothing but the ports and the stream table. -/
@[simp] theorem offerCredit_frame (en : EntryId) (p : PortId) (s : State) :
    (offerCredit en p s).tb = s.tb ∧ (offerCredit en p s).win = s.win ∧ (offerCredit en p s).org = s.org ∧
    (offerCredit en p s).xmit = s.xmit ∧ (offerCredit en p s).buffer = s.buffer ∧
    (offerCredit en p s).slots = s.slots ∧ (offerCredit en p s).trg = s.trg ∧
    (offerCredit en p s).mgmt = s.mgmt ∧ (offerCredit en p s).inReset = s.inReset ∧
    (offerCredit en p s).pending = s.pending := by
  simp only [offerCredit]
  (repeat' split) <;> simp

/-- `creditTest` moves nothing but the ports and the stream table. -/
@[simp] theorem creditTest_frame (en : EntryId) (s : State) :
    (creditTest en s).tb = s.tb ∧ (creditTest en s).win = s.win ∧ (creditTest en s).org = s.org ∧
    (creditTest en s).xmit = s.xmit ∧ (creditTest en s).buffer = s.buffer ∧ (creditTest en s).slots = s.slots ∧
    (creditTest en s).trg = s.trg ∧ (creditTest en s).mgmt = s.mgmt ∧
    (creditTest en s).inReset = s.inReset ∧ (creditTest en s).pending = s.pending := by
  simp only [creditTest]
  (repeat' split) <;> simp

/-- `creditNow` moves nothing but the ports and the stream table. -/
@[simp] theorem creditNow_frame (en : EntryId) (s : State) :
    (creditNow en s).tb = s.tb ∧ (creditNow en s).win = s.win ∧ (creditNow en s).org = s.org ∧
    (creditNow en s).xmit = s.xmit ∧ (creditNow en s).buffer = s.buffer ∧ (creditNow en s).slots = s.slots ∧
    (creditNow en s).trg = s.trg ∧ (creditNow en s).mgmt = s.mgmt ∧ (creditNow en s).inReset = s.inReset ∧
    (creditNow en s).pending = s.pending := by
  simp only [creditNow]
  (repeat' split) <;> simp

/-- `withdrawQueries` moves nothing but the ports. -/
@[simp] theorem withdrawQueries_frame (en : EntryId) (s : State) :
    (withdrawQueries en s).tb = s.tb ∧ (withdrawQueries en s).win = s.win ∧ (withdrawQueries en s).org = s.org ∧
    (withdrawQueries en s).xmit = s.xmit ∧ (withdrawQueries en s).entries = s.entries ∧
    (withdrawQueries en s).buffer = s.buffer ∧ (withdrawQueries en s).slots = s.slots ∧
    (withdrawQueries en s).trg = s.trg ∧ (withdrawQueries en s).mgmt = s.mgmt ∧
    (withdrawQueries en s).inReset = s.inReset ∧ (withdrawQueries en s).pending = s.pending := by
  unfold withdrawQueries
  and_intros <;>
    exact forPorts_keeps _ (by intro x s; simp) _

/-- `stopAdvertising` moves nothing but the ports and the stream table. -/
@[simp] theorem stopAdvertising_frame (en : EntryId) (s : State) :
    (stopAdvertising en s).tb = s.tb ∧ (stopAdvertising en s).win = s.win ∧ (stopAdvertising en s).org = s.org ∧
    (stopAdvertising en s).xmit = s.xmit ∧ (stopAdvertising en s).buffer = s.buffer ∧
    (stopAdvertising en s).slots = s.slots ∧ (stopAdvertising en s).trg = s.trg ∧
    (stopAdvertising en s).mgmt = s.mgmt ∧ (stopAdvertising en s).inReset = s.inReset ∧
    (stopAdvertising en s).pending = s.pending := by
  unfold stopAdvertising
  simp only [State.updEntry_tb, State.updEntry_win, State.updEntry_org, State.updEntry_xmit, State.updEntry_buffer,
    State.updEntry_slots, State.updEntry_trg, State.updEntry_mgmt, State.updEntry_inReset, State.updEntry_pending]
  and_intros <;> exact forPorts_keeps _ (by intro x s; simp) _

/-- `endPresentations` moves nothing but the slots. -/
@[simp] theorem endPresentations_frame (en : EntryId) (f : Seq → Bool) (s : State) :
    (endPresentations en f s).tb = s.tb ∧ (endPresentations en f s).win = s.win ∧
    (endPresentations en f s).org = s.org ∧ (endPresentations en f s).ports = s.ports ∧
    (endPresentations en f s).xmit = s.xmit ∧ (endPresentations en f s).entries = s.entries ∧
    (endPresentations en f s).buffer = s.buffer ∧ (endPresentations en f s).trg = s.trg ∧
    (endPresentations en f s).mgmt = s.mgmt ∧ (endPresentations en f s).inReset = s.inReset ∧
    (endPresentations en f s).pending = s.pending := by
  unfold endPresentations
  and_intros <;>
    exact forSlots_keeps _ (by intro x s; simp) _

/-- `unbindSink` moves nothing but the slots. -/
@[simp] theorem unbindSink_frame (k : SlotId) (s : State) :
    (unbindSink k s).tb = s.tb ∧ (unbindSink k s).win = s.win ∧ (unbindSink k s).org = s.org ∧
    (unbindSink k s).ports = s.ports ∧ (unbindSink k s).xmit = s.xmit ∧ (unbindSink k s).entries = s.entries ∧
    (unbindSink k s).buffer = s.buffer ∧ (unbindSink k s).trg = s.trg ∧ (unbindSink k s).mgmt = s.mgmt ∧
    (unbindSink k s).inReset = s.inReset ∧ (unbindSink k s).pending = s.pending := by
  simp [unbindSink]

/-- `staleFlights` moves nothing but the ports. -/
@[simp] theorem staleFlights_frame (en : EntryId) (s : State) :
    (staleFlights en s).tb = s.tb ∧ (staleFlights en s).win = s.win ∧ (staleFlights en s).org = s.org ∧
    (staleFlights en s).xmit = s.xmit ∧ (staleFlights en s).entries = s.entries ∧
    (staleFlights en s).buffer = s.buffer ∧ (staleFlights en s).slots = s.slots ∧
    (staleFlights en s).trg = s.trg ∧ (staleFlights en s).mgmt = s.mgmt ∧
    (staleFlights en s).inReset = s.inReset ∧ (staleFlights en s).pending = s.pending := by
  unfold staleFlights
  and_intros <;>
    exact forPorts_keeps _ (by intro x s; simp) _

/-- `settleHold` moves nothing of an entry but its hold and hold count. -/
theorem settleHold_eq (e : Entry) :
    settleHold e = { e with hold := holdCond e, holdCount := if holdCond e then e.holdCount else 0 } := by
  cases h : holdCond e <;> simp [settleHold, h]

/-- Hold as `settleHold` asserts it belongs to a LOSSLESS origin in RUNNING with a full ring (R140). -/
theorem hold_settleHold {e : Entry} (h : (settleHold e).hold = true) :
    (settleHold e).state = .running ∧ e.mode = .lossless ∧ isOrigin e = true ∧ ringFull e = true ∧ hasOpen e = false := by
  have h : holdCond e = true := by simpa only [settleHold_eq] using h
  simpa [settleHold_eq, holdCond, and_assoc] using h

/-- `stallReturn` moves nothing but the stream table and the management port. -/
@[simp] theorem stallReturn_frame (en : EntryId) (s : State) :
    (stallReturn en s).tb = s.tb ∧ (stallReturn en s).win = s.win ∧ (stallReturn en s).org = s.org ∧
    (stallReturn en s).ports = s.ports ∧ (stallReturn en s).xmit = s.xmit ∧
    (stallReturn en s).buffer = s.buffer ∧ (stallReturn en s).slots = s.slots ∧ (stallReturn en s).trg = s.trg ∧
    (stallReturn en s).inReset = s.inReset ∧ (stallReturn en s).pending = s.pending := by
  simp only [stallReturn]
  (repeat' split) <;> simp

/-- `goClosed` moves nothing but the ports, the stream table and the slots. -/
@[simp] theorem goClosed_frame (en : EntryId) (s : State) :
    (goClosed en s).tb = s.tb ∧ (goClosed en s).win = s.win ∧ (goClosed en s).org = s.org ∧
    (goClosed en s).xmit = s.xmit ∧ (goClosed en s).buffer = s.buffer ∧ (goClosed en s).trg = s.trg ∧
    (goClosed en s).mgmt = s.mgmt ∧ (goClosed en s).inReset = s.inReset ∧ (goClosed en s).pending = s.pending := by
  unfold goClosed
  simp only [State.updEntry_tb, State.updEntry_win, State.updEntry_org, State.updEntry_xmit, State.updEntry_buffer,
    State.updEntry_trg, State.updEntry_mgmt, State.updEntry_inReset, State.updEntry_pending, staleFlights_frame, withdrawQueries_frame,
    stopAdvertising_frame]
  and_intros <;> exact forSlots_keeps _ (by intro x s; split <;> simp) _

/-- `closeEntry` moves nothing but the ports, the stream table, the slots and the management port. -/
@[simp] theorem closeEntry_frame (en : EntryId) (cause flushed : Nat) (s : State) :
    (closeEntry en cause flushed s).tb = s.tb ∧ (closeEntry en cause flushed s).win = s.win ∧
    (closeEntry en cause flushed s).org = s.org ∧ (closeEntry en cause flushed s).xmit = s.xmit ∧
    (closeEntry en cause flushed s).buffer = s.buffer ∧ (closeEntry en cause flushed s).trg = s.trg ∧
    (closeEntry en cause flushed s).inReset = s.inReset ∧ (closeEntry en cause flushed s).pending = s.pending := by
  simp [closeEntry]

/-- `closeIfEmpty` moves nothing but the ports, the stream table, the slots and the management port. -/
@[simp] theorem closeIfEmpty_frame (en : EntryId) (s : State) :
    (closeIfEmpty en s).tb = s.tb ∧ (closeIfEmpty en s).win = s.win ∧ (closeIfEmpty en s).org = s.org ∧
    (closeIfEmpty en s).xmit = s.xmit ∧ (closeIfEmpty en s).buffer = s.buffer ∧
    (closeIfEmpty en s).trg = s.trg ∧ (closeIfEmpty en s).inReset = s.inReset ∧
    (closeIfEmpty en s).pending = s.pending := by
  simp only [closeIfEmpty]
  (repeat' split) <;> simp

/-- `heldChanged` moves nothing but the ports, the stream table, the slots and the management port. -/
@[simp] theorem heldChanged_frame (en : EntryId) (s : State) :
    (heldChanged en s).tb = s.tb ∧ (heldChanged en s).win = s.win ∧ (heldChanged en s).org = s.org ∧
    (heldChanged en s).xmit = s.xmit ∧ (heldChanged en s).buffer = s.buffer ∧ (heldChanged en s).trg = s.trg ∧
    (heldChanged en s).inReset = s.inReset ∧ (heldChanged en s).pending = s.pending := by
  simp [heldChanged]

/-- `sweep` moves nothing but the ports, the stream table, the slots and the management port. -/
@[simp] theorem sweep_frame (en : EntryId) (s : State) :
    (sweep en s).tb = s.tb ∧ (sweep en s).win = s.win ∧ (sweep en s).org = s.org ∧ (sweep en s).xmit = s.xmit ∧
    (sweep en s).buffer = s.buffer ∧ (sweep en s).trg = s.trg ∧ (sweep en s).inReset = s.inReset ∧
    (sweep en s).pending = s.pending := by
  simp only [sweep]
  (repeat' split) <;> simp

/-- `clearPort` moves nothing but the ports, the stream table, the slots and the management port. -/
@[simp] theorem clearPort_frame (en : EntryId) (p : PortId) (s : State) :
    (clearPort en p s).tb = s.tb ∧ (clearPort en p s).win = s.win ∧ (clearPort en p s).org = s.org ∧
    (clearPort en p s).xmit = s.xmit ∧ (clearPort en p s).buffer = s.buffer ∧ (clearPort en p s).trg = s.trg ∧
    (clearPort en p s).inReset = s.inReset ∧ (clearPort en p s).pending = s.pending := by
  simp [clearPort]

/-- `clearSlot` moves nothing but the ports, the stream table, the slots and the management port. -/
@[simp] theorem clearSlot_frame (en : EntryId) (k : SlotId) (s : State) :
    (clearSlot en k s).tb = s.tb ∧ (clearSlot en k s).win = s.win ∧ (clearSlot en k s).org = s.org ∧
    (clearSlot en k s).xmit = s.xmit ∧ (clearSlot en k s).buffer = s.buffer ∧ (clearSlot en k s).trg = s.trg ∧
    (clearSlot en k s).inReset = s.inReset ∧ (clearSlot en k s).pending = s.pending := by
  simp [clearSlot]

/-- `removePort` moves nothing but the ports and the stream table. -/
@[simp] theorem removePort_frame (en : EntryId) (p : PortId) (s : State) :
    (removePort en p s).tb = s.tb ∧ (removePort en p s).win = s.win ∧ (removePort en p s).org = s.org ∧
    (removePort en p s).xmit = s.xmit ∧ (removePort en p s).buffer = s.buffer ∧ (removePort en p s).slots = s.slots ∧
    (removePort en p s).trg = s.trg ∧ (removePort en p s).mgmt = s.mgmt ∧ (removePort en p s).inReset = s.inReset ∧
    (removePort en p s).pending = s.pending := by
  simp [removePort]

/-- `removeSlot` moves nothing but the stream table and the slots. -/
@[simp] theorem removeSlot_frame (en : EntryId) (k : SlotId) (s : State) :
    (removeSlot en k s).tb = s.tb ∧ (removeSlot en k s).win = s.win ∧ (removeSlot en k s).org = s.org ∧
    (removeSlot en k s).ports = s.ports ∧ (removeSlot en k s).xmit = s.xmit ∧ (removeSlot en k s).buffer = s.buffer ∧
    (removeSlot en k s).trg = s.trg ∧ (removeSlot en k s).mgmt = s.mgmt ∧ (removeSlot en k s).inReset = s.inReset ∧
    (removeSlot en k s).pending = s.pending := by
  simp [removeSlot]

/-- `clearBlockPort` moves nothing but the ports, the stream table, the slots and the management port. -/
@[simp] theorem clearBlockPort_frame (en : EntryId) (sq : Seq) (p : PortId) (s : State) :
    (clearBlockPort en sq p s).tb = s.tb ∧ (clearBlockPort en sq p s).win = s.win ∧
    (clearBlockPort en sq p s).org = s.org ∧ (clearBlockPort en sq p s).xmit = s.xmit ∧
    (clearBlockPort en sq p s).buffer = s.buffer ∧ (clearBlockPort en sq p s).trg = s.trg ∧
    (clearBlockPort en sq p s).inReset = s.inReset ∧ (clearBlockPort en sq p s).pending = s.pending := by
  simp [clearBlockPort]

/-- `clearBlockSlot` moves nothing but the ports, the stream table, the slots and the management port. -/
@[simp] theorem clearBlockSlot_frame (en : EntryId) (sq : Seq) (k : SlotId) (s : State) :
    (clearBlockSlot en sq k s).tb = s.tb ∧ (clearBlockSlot en sq k s).win = s.win ∧
    (clearBlockSlot en sq k s).org = s.org ∧ (clearBlockSlot en sq k s).xmit = s.xmit ∧
    (clearBlockSlot en sq k s).buffer = s.buffer ∧ (clearBlockSlot en sq k s).trg = s.trg ∧
    (clearBlockSlot en sq k s).inReset = s.inReset ∧ (clearBlockSlot en sq k s).pending = s.pending := by
  simp [clearBlockSlot]

/-! ### Placement and blocks at the origin (Streams) -/

/-- `applyWindow` moves nothing but the stream table, the sample buffer and the management port. -/
@[simp] theorem applyWindow_frame (en : EntryId) (s : State) :
    (applyWindow en s).tb = s.tb ∧ (applyWindow en s).win = s.win ∧ (applyWindow en s).org = s.org ∧
    (applyWindow en s).ports = s.ports ∧ (applyWindow en s).xmit = s.xmit ∧ (applyWindow en s).slots = s.slots ∧
    (applyWindow en s).trg = s.trg ∧ (applyWindow en s).inReset = s.inReset ∧
    (applyWindow en s).pending = s.pending := by
  simp only [applyWindow]
  (repeat' split) <;> simp

/-- `placeBlock` moves nothing but the stream table, the sample buffer and the management port. -/
@[simp] theorem placeBlock_frame (en : EntryId) (b : Block) (c : List Byte) (s : State) :
    (placeBlock en b c s).tb = s.tb ∧ (placeBlock en b c s).win = s.win ∧ (placeBlock en b c s).org = s.org ∧
    (placeBlock en b c s).ports = s.ports ∧ (placeBlock en b c s).xmit = s.xmit ∧
    (placeBlock en b c s).slots = s.slots ∧ (placeBlock en b c s).trg = s.trg ∧
    (placeBlock en b c s).inReset = s.inReset ∧ (placeBlock en b c s).pending = s.pending := by
  simp only [placeBlock]
  (repeat' split) <;> simp

/-- `skipOldest` moves nothing but the stream table and the slots. -/
@[simp] theorem skipOldest_frame (en : EntryId) (s : State) :
    (skipOldest en s).tb = s.tb ∧ (skipOldest en s).win = s.win ∧ (skipOldest en s).org = s.org ∧
    (skipOldest en s).ports = s.ports ∧ (skipOldest en s).xmit = s.xmit ∧ (skipOldest en s).buffer = s.buffer ∧
    (skipOldest en s).trg = s.trg ∧ (skipOldest en s).mgmt = s.mgmt ∧
    (skipOldest en s).inReset = s.inReset ∧ (skipOldest en s).pending = s.pending := by
  simp only [skipOldest]
  (repeat' split) <;> simp

/-- `flushRing` moves nothing but the stream table and the slots. -/
@[simp] theorem flushRing_frame (en : EntryId) (s : State) :
    (flushRing en s).tb = s.tb ∧ (flushRing en s).win = s.win ∧ (flushRing en s).org = s.org ∧
    (flushRing en s).ports = s.ports ∧ (flushRing en s).xmit = s.xmit ∧ (flushRing en s).buffer = s.buffer ∧
    (flushRing en s).trg = s.trg ∧ (flushRing en s).mgmt = s.mgmt ∧ (flushRing en s).inReset = s.inReset ∧
    (flushRing en s).pending = s.pending := by
  simp [flushRing]

/-- `closeBlock` moves nothing but the ports, the stream table, the slots and the management port. -/
@[simp] theorem closeBlock_frame (en : EntryId) (s : State) :
    (closeBlock en s).tb = s.tb ∧ (closeBlock en s).win = s.win ∧ (closeBlock en s).org = s.org ∧
    (closeBlock en s).xmit = s.xmit ∧ (closeBlock en s).buffer = s.buffer ∧ (closeBlock en s).trg = s.trg ∧
    (closeBlock en s).inReset = s.inReset ∧ (closeBlock en s).pending = s.pending := by
  simp only [closeBlock]
  (repeat' split) <;> simp

/-- `writeSample` moves nothing but the ports, the stream table, the sample buffer, the slots and the
management port. -/
@[simp] theorem writeSample_frame (en : EntryId) (d : BitVec 32) (s : State) :
    (writeSample en d s).tb = s.tb ∧ (writeSample en d s).win = s.win ∧ (writeSample en d s).org = s.org ∧
    (writeSample en d s).xmit = s.xmit ∧ (writeSample en d s).trg = s.trg ∧
    (writeSample en d s).inReset = s.inReset ∧ (writeSample en d s).pending = s.pending := by
  simp only [writeSample]
  (repeat' split) <;> simp

/-- `openBlock` moves nothing but the stream table, the sample buffer, the slots and the management port. -/
@[simp] theorem openBlock_frame (en : EntryId) (t : Tick) (s : State) :
    (openBlock en t s).tb = s.tb ∧ (openBlock en t s).win = s.win ∧ (openBlock en t s).org = s.org ∧
    (openBlock en t s).ports = s.ports ∧ (openBlock en t s).xmit = s.xmit ∧ (openBlock en t s).trg = s.trg ∧
    (openBlock en t s).inReset = s.inReset ∧ (openBlock en t s).pending = s.pending := by
  simp only [openBlock]
  (repeat' split) <;> simp

/-- `offerSample` moves nothing but the ports, the stream table, the sample buffer, the slots and the
management port. -/
@[simp] theorem offerSample_frame (en : EntryId) (t : Tick) (v : Bool) (d : BitVec 32) (s : State) :
    (offerSample en t v d s).tb = s.tb ∧ (offerSample en t v d s).win = s.win ∧
    (offerSample en t v d s).org = s.org ∧ (offerSample en t v d s).xmit = s.xmit ∧
    (offerSample en t v d s).trg = s.trg ∧ (offerSample en t v d s).inReset = s.inReset ∧
    (offerSample en t v d s).pending = s.pending := by
  simp only [offerSample]
  (repeat' split) <;> simp

/-- `stepStreams` moves nothing but the ports, the stream table, the slots and the management port. -/
@[simp] theorem stepStreams_frame (s : State) :
    (stepStreams s).tb = s.tb ∧ (stepStreams s).win = s.win ∧ (stepStreams s).org = s.org ∧
    (stepStreams s).xmit = s.xmit ∧ (stepStreams s).buffer = s.buffer ∧ (stepStreams s).trg = s.trg ∧
    (stepStreams s).inReset = s.inReset ∧ (stepStreams s).pending = s.pending := by
  unfold stepStreams
  and_intros <;>
    exact forEntries_keeps _ (by intro x s; dsimp only; (repeat' split) <;> simp) _

/-- `toReady` moves nothing but the ports, the stream table, the slots and the management port. -/
@[simp] theorem toReady_frame (en : EntryId) (s : State) :
    (toReady en s).tb = s.tb ∧ (toReady en s).win = s.win ∧ (toReady en s).org = s.org ∧
    (toReady en s).xmit = s.xmit ∧ (toReady en s).buffer = s.buffer ∧ (toReady en s).trg = s.trg ∧
    (toReady en s).inReset = s.inReset ∧ (toReady en s).pending = s.pending := by
  simp [toReady]

/-- `sourceLost` moves nothing but the ports, the stream table, the slots and the management port. -/
@[simp] theorem sourceLost_frame (k : SlotId) (s : State) :
    (sourceLost k s).tb = s.tb ∧ (sourceLost k s).win = s.win ∧ (sourceLost k s).org = s.org ∧
    (sourceLost k s).xmit = s.xmit ∧ (sourceLost k s).buffer = s.buffer ∧ (sourceLost k s).trg = s.trg ∧
    (sourceLost k s).inReset = s.inReset ∧ (sourceLost k s).pending = s.pending := by
  simp only [sourceLost]
  (repeat' split) <;> simp

/-- `markStreams` moves nothing but the stream table. -/
@[simp] theorem markStreams_frame (id : TrigId) (s : State) :
    (markStreams id s).tb = s.tb ∧ (markStreams id s).win = s.win ∧ (markStreams id s).org = s.org ∧
    (markStreams id s).ports = s.ports ∧ (markStreams id s).xmit = s.xmit ∧
    (markStreams id s).buffer = s.buffer ∧ (markStreams id s).slots = s.slots ∧ (markStreams id s).trg = s.trg ∧
    (markStreams id s).mgmt = s.mgmt ∧ (markStreams id s).inReset = s.inReset ∧
    (markStreams id s).pending = s.pending := by
  unfold markStreams
  and_intros <;>
    exact forEntries_keeps _ (by intro x s; simp) _

/-! ### Blocks and credit received (Streams) -/

/-- `countUnknown` moves nothing but the ports. -/
@[simp] theorem countUnknown_frame (p : PortId) (s : State) :
    (countUnknown p s).tb = s.tb ∧ (countUnknown p s).win = s.win ∧ (countUnknown p s).org = s.org ∧
    (countUnknown p s).xmit = s.xmit ∧ (countUnknown p s).entries = s.entries ∧
    (countUnknown p s).buffer = s.buffer ∧ (countUnknown p s).slots = s.slots ∧ (countUnknown p s).trg = s.trg ∧
    (countUnknown p s).mgmt = s.mgmt ∧ (countUnknown p s).inReset = s.inReset ∧
    (countUnknown p s).pending = s.pending := by
  simp [countUnknown]

/-- `acceptBlock` moves nothing but the ports, the stream table, the sample buffer, the slots and the
management port. -/
@[simp] theorem acceptBlock_frame (en : EntryId) (c : SampleCell) (s : State) :
    (acceptBlock en c s).tb = s.tb ∧ (acceptBlock en c s).win = s.win ∧ (acceptBlock en c s).org = s.org ∧
    (acceptBlock en c s).xmit = s.xmit ∧ (acceptBlock en c s).trg = s.trg ∧
    (acceptBlock en c s).inReset = s.inReset ∧ (acceptBlock en c s).pending = s.pending := by
  simp only [acceptBlock]
  (repeat' split) <;> simp

/-- `judgeSample` moves nothing but the ports, the stream table, the sample buffer, the slots and the
management port. -/
@[simp] theorem judgeSample_frame (en : EntryId) (c : SampleCell) (s : State) :
    (judgeSample en c s).tb = s.tb ∧ (judgeSample en c s).win = s.win ∧ (judgeSample en c s).org = s.org ∧
    (judgeSample en c s).xmit = s.xmit ∧ (judgeSample en c s).trg = s.trg ∧
    (judgeSample en c s).inReset = s.inReset ∧ (judgeSample en c s).pending = s.pending := by
  simp only [judgeSample]
  (repeat' split) <;> simp

/-- `receiveSample` moves nothing but the ports, the stream table, the sample buffer, the slots and the
management port. -/
@[simp] theorem receiveSample_frame (p : PortId) (c : SampleCell) (s : State) :
    (receiveSample p c s).tb = s.tb ∧ (receiveSample p c s).win = s.win ∧ (receiveSample p c s).org = s.org ∧
    (receiveSample p c s).xmit = s.xmit ∧ (receiveSample p c s).trg = s.trg ∧
    (receiveSample p c s).inReset = s.inReset ∧ (receiveSample p c s).pending = s.pending := by
  simp only [receiveSample]
  (repeat' split) <;> simp

/-- `receiveCredit` moves nothing but the stream table. -/
@[simp] theorem receiveCredit_frame (p : PortId) (c : CreditCell) (s : State) :
    (receiveCredit p c s).tb = s.tb ∧ (receiveCredit p c s).win = s.win ∧ (receiveCredit p c s).org = s.org ∧
    (receiveCredit p c s).ports = s.ports ∧ (receiveCredit p c s).xmit = s.xmit ∧
    (receiveCredit p c s).buffer = s.buffer ∧ (receiveCredit p c s).slots = s.slots ∧
    (receiveCredit p c s).trg = s.trg ∧ (receiveCredit p c s).mgmt = s.mgmt ∧
    (receiveCredit p c s).inReset = s.inReset ∧ (receiveCredit p c s).pending = s.pending := by
  simp only [receiveCredit]
  (repeat' split) <;> simp

/-- `receiveQuery` moves nothing but the ports and the stream table. -/
@[simp] theorem receiveQuery_frame (p : PortId) (n : Nat) (s : State) :
    (receiveQuery p n s).tb = s.tb ∧ (receiveQuery p n s).win = s.win ∧ (receiveQuery p n s).org = s.org ∧
    (receiveQuery p n s).xmit = s.xmit ∧ (receiveQuery p n s).buffer = s.buffer ∧
    (receiveQuery p n s).slots = s.slots ∧ (receiveQuery p n s).trg = s.trg ∧
    (receiveQuery p n s).mgmt = s.mgmt ∧ (receiveQuery p n s).inReset = s.inReset ∧
    (receiveQuery p n s).pending = s.pending := by
  simp only [receiveQuery]
  (repeat' split) <;> simp

/-- `abandonDest` moves nothing but the ports, the stream table, the slots and the management port. -/
@[simp] theorem abandonDest_frame (en : EntryId) (p : PortId) (s : State) :
    (abandonDest en p s).tb = s.tb ∧ (abandonDest en p s).win = s.win ∧ (abandonDest en p s).org = s.org ∧
    (abandonDest en p s).xmit = s.xmit ∧ (abandonDest en p s).buffer = s.buffer ∧
    (abandonDest en p s).trg = s.trg ∧ (abandonDest en p s).inReset = s.inReset ∧
    (abandonDest en p s).pending = s.pending := by
  simp [abandonDest]

/-- `judgeCredit` moves nothing but the ports, the stream table, the slots and the management port. -/
@[simp] theorem judgeCredit_frame (en : EntryId) (p : PortId) (s : State) :
    (judgeCredit en p s).1.tb = s.tb ∧ (judgeCredit en p s).1.win = s.win ∧ (judgeCredit en p s).1.org = s.org ∧
    (judgeCredit en p s).1.xmit = s.xmit ∧ (judgeCredit en p s).1.buffer = s.buffer ∧
    (judgeCredit en p s).1.trg = s.trg ∧ (judgeCredit en p s).1.inReset = s.inReset ∧
    (judgeCredit en p s).1.pending = s.pending := by
  simp only [judgeCredit]
  (repeat' split) <;> simp

/-- `placeQuery` moves nothing but the ports and the stream table. -/
@[simp] theorem placeQuery_frame (en : EntryId) (p : PortId) (s : State) :
    (placeQuery en p s).tb = s.tb ∧ (placeQuery en p s).win = s.win ∧ (placeQuery en p s).org = s.org ∧
    (placeQuery en p s).xmit = s.xmit ∧ (placeQuery en p s).buffer = s.buffer ∧
    (placeQuery en p s).slots = s.slots ∧ (placeQuery en p s).trg = s.trg ∧ (placeQuery en p s).mgmt = s.mgmt ∧
    (placeQuery en p s).inReset = s.inReset ∧ (placeQuery en p s).pending = s.pending := by
  simp only [placeQuery]
  (repeat' split) <;> simp

/-! ### What the events of a port do to the stream table (Streams) -/

/-- `streamsPortActive` moves nothing but the ports and the stream table. -/
@[simp] theorem streamsPortActive_frame (p : PortId) (s : State) :
    (streamsPortActive p s).tb = s.tb ∧ (streamsPortActive p s).win = s.win ∧
    (streamsPortActive p s).org = s.org ∧ (streamsPortActive p s).xmit = s.xmit ∧
    (streamsPortActive p s).buffer = s.buffer ∧ (streamsPortActive p s).slots = s.slots ∧
    (streamsPortActive p s).trg = s.trg ∧ (streamsPortActive p s).mgmt = s.mgmt ∧
    (streamsPortActive p s).inReset = s.inReset ∧ (streamsPortActive p s).pending = s.pending := by
  unfold streamsPortActive
  and_intros <;>
    exact forEntries_keeps _ (by intro x s; (repeat' split) <;> simp) _

/-- `streamsPortDraining` moves nothing but the stream table. -/
@[simp] theorem streamsPortDraining_frame (p : PortId) (s : State) :
    (streamsPortDraining p s).tb = s.tb ∧ (streamsPortDraining p s).win = s.win ∧
    (streamsPortDraining p s).org = s.org ∧ (streamsPortDraining p s).ports = s.ports ∧
    (streamsPortDraining p s).xmit = s.xmit ∧ (streamsPortDraining p s).buffer = s.buffer ∧
    (streamsPortDraining p s).slots = s.slots ∧ (streamsPortDraining p s).trg = s.trg ∧
    (streamsPortDraining p s).mgmt = s.mgmt ∧ (streamsPortDraining p s).inReset = s.inReset ∧
    (streamsPortDraining p s).pending = s.pending := by
  unfold streamsPortDraining
  and_intros <;>
    exact forEntries_keeps _ (by intro x s; simp) _

/-- `streamsPortDormant` moves nothing but the ports and the stream table. -/
@[simp] theorem streamsPortDormant_frame (p : PortId) (s : State) :
    (streamsPortDormant p s).tb = s.tb ∧ (streamsPortDormant p s).win = s.win ∧
    (streamsPortDormant p s).org = s.org ∧ (streamsPortDormant p s).xmit = s.xmit ∧
    (streamsPortDormant p s).buffer = s.buffer ∧ (streamsPortDormant p s).slots = s.slots ∧
    (streamsPortDormant p s).trg = s.trg ∧ (streamsPortDormant p s).mgmt = s.mgmt ∧
    (streamsPortDormant p s).inReset = s.inReset ∧ (streamsPortDormant p s).pending = s.pending := by
  unfold streamsPortDormant
  and_intros <;>
    exact forEntries_keeps _ (by intro x s; (repeat' split) <;> simp) _

/-- `streamsClearPort` moves nothing but the ports, the stream table, the slots and the management port. -/
@[simp] theorem streamsClearPort_frame (p : PortId) (s : State) :
    (streamsClearPort p s).tb = s.tb ∧ (streamsClearPort p s).win = s.win ∧ (streamsClearPort p s).org = s.org ∧
    (streamsClearPort p s).xmit = s.xmit ∧ (streamsClearPort p s).buffer = s.buffer ∧
    (streamsClearPort p s).trg = s.trg ∧ (streamsClearPort p s).inReset = s.inReset ∧
    (streamsClearPort p s).pending = s.pending := by
  unfold streamsClearPort
  and_intros <;>
    exact forEntries_keeps _ (by intro x s; simp) _

/-- `streamsTeardown` moves nothing but the ports, the stream table, the slots and the management port. -/
@[simp] theorem streamsTeardown_frame (p : PortId) (s : State) :
    (streamsTeardown p s).tb = s.tb ∧ (streamsTeardown p s).win = s.win ∧ (streamsTeardown p s).org = s.org ∧
    (streamsTeardown p s).xmit = s.xmit ∧ (streamsTeardown p s).buffer = s.buffer ∧
    (streamsTeardown p s).trg = s.trg ∧ (streamsTeardown p s).inReset = s.inReset ∧
    (streamsTeardown p s).pending = s.pending := by
  unfold streamsTeardown
  simp only [streamsClearPort_frame]
  and_intros <;>
    exact (forEntries_keeps _ (by intro x s; simp) _).trans (by simp)

/-- `ageBlock` moves nothing but the ports, the stream table, the slots and the management port. -/
@[simp] theorem ageBlock_frame (en : EntryId) (s : State) :
    (ageBlock en s).tb = s.tb ∧ (ageBlock en s).win = s.win ∧ (ageBlock en s).org = s.org ∧
    (ageBlock en s).xmit = s.xmit ∧ (ageBlock en s).buffer = s.buffer ∧ (ageBlock en s).trg = s.trg ∧
    (ageBlock en s).inReset = s.inReset ∧ (ageBlock en s).pending = s.pending := by
  simp only [ageBlock]
  (repeat' split) <;> simp

/-- `countHold` moves nothing but the stream table and the management port. -/
@[simp] theorem countHold_frame (en : EntryId) (s : State) :
    (countHold en s).tb = s.tb ∧ (countHold en s).win = s.win ∧ (countHold en s).org = s.org ∧
    (countHold en s).ports = s.ports ∧ (countHold en s).xmit = s.xmit ∧ (countHold en s).buffer = s.buffer ∧
    (countHold en s).slots = s.slots ∧ (countHold en s).trg = s.trg ∧ (countHold en s).inReset = s.inReset ∧
    (countHold en s).pending = s.pending := by
  simp only [countHold]
  (repeat' split) <;> simp

/-- `countDrain` moves nothing but the ports, the stream table, the slots and the management port. -/
@[simp] theorem countDrain_frame (en : EntryId) (s : State) :
    (countDrain en s).tb = s.tb ∧ (countDrain en s).win = s.win ∧ (countDrain en s).org = s.org ∧
    (countDrain en s).xmit = s.xmit ∧ (countDrain en s).buffer = s.buffer ∧ (countDrain en s).trg = s.trg ∧
    (countDrain en s).inReset = s.inReset ∧ (countDrain en s).pending = s.pending := by
  simp only [countDrain]
  (repeat' split) <;> simp

/-- `streamBoundary` moves nothing but the ports, the stream table, the slots and the management port. -/
@[simp] theorem streamBoundary_frame (en : EntryId) (s : State) :
    (streamBoundary en s).tb = s.tb ∧ (streamBoundary en s).win = s.win ∧ (streamBoundary en s).org = s.org ∧
    (streamBoundary en s).xmit = s.xmit ∧ (streamBoundary en s).buffer = s.buffer ∧
    (streamBoundary en s).trg = s.trg ∧ (streamBoundary en s).inReset = s.inReset ∧
    (streamBoundary en s).pending = s.pending := by
  simp [streamBoundary]

/-- `trafficClose` moves nothing but the ports, the stream table, the slots and the management port. -/
@[simp] theorem trafficClose_frame (en : EntryId) (s : State) :
    (trafficClose en s).tb = s.tb ∧ (trafficClose en s).win = s.win ∧ (trafficClose en s).org = s.org ∧
    (trafficClose en s).xmit = s.xmit ∧ (trafficClose en s).buffer = s.buffer ∧
    (trafficClose en s).trg = s.trg ∧ (trafficClose en s).inReset = s.inReset ∧
    (trafficClose en s).pending = s.pending := by
  simp only [trafficClose]
  (repeat' split) <;> simp

/-! ### Triggers -/

/-- `addHistory` moves nothing but the trigger unit. -/
@[simp] theorem addHistory_frame (r : HistoryRecord) (s : State) :
    (addHistory r s).tb = s.tb ∧ (addHistory r s).win = s.win ∧ (addHistory r s).org = s.org ∧
    (addHistory r s).ports = s.ports ∧ (addHistory r s).xmit = s.xmit ∧ (addHistory r s).entries = s.entries ∧
    (addHistory r s).buffer = s.buffer ∧ (addHistory r s).slots = s.slots ∧ (addHistory r s).mgmt = s.mgmt ∧
    (addHistory r s).inReset = s.inReset ∧ (addHistory r s).pending = s.pending := by
  simp [addHistory]

/-- `offerForwards` moves nothing but the ports. -/
@[simp] theorem offerForwards_frame (c : ControlCell) (ports : Set4) (s : State) :
    (offerForwards c ports s).1.tb = s.tb ∧ (offerForwards c ports s).1.win = s.win ∧
    (offerForwards c ports s).1.org = s.org ∧ (offerForwards c ports s).1.xmit = s.xmit ∧
    (offerForwards c ports s).1.entries = s.entries ∧ (offerForwards c ports s).1.buffer = s.buffer ∧
    (offerForwards c ports s).1.slots = s.slots ∧ (offerForwards c ports s).1.trg = s.trg ∧
    (offerForwards c ports s).1.mgmt = s.mgmt ∧ (offerForwards c ports s).1.inReset = s.inReset ∧
    (offerForwards c ports s).1.pending = s.pending := by
  have key : ∀ {α : Type} (g : State → α), (∀ p s, g (pushControl p c s) = g s) →
      g (offerForwards c ports s).1 = g s := by
    intro α g h
    unfold offerForwards
    suffices ∀ (l : List PortId) (r : State × Set4), g (l.foldl (fun (r : State × Set4) p =>
        if inSet ports p.val then
          if ctrlRoom (r.1.port p) then (pushControl p c r.1, r.2) else (r.1, withBit r.2 p.val)
        else r) r).1 = g r.1 from this allPorts (s, 0)
    intro l
    induction l with
    | nil => intro r; rfl
    | cons x l ih =>
      intro r
      rw [List.foldl_cons, ih]
      (repeat' split) <;> simp [h]
  and_intros <;> exact key _ (by intro p s; simp)

/-- `withdrawTriggers` moves nothing but the ports. -/
@[simp] theorem withdrawTriggers_frame (id : TrigId) (s : State) :
    (withdrawTriggers id s).tb = s.tb ∧ (withdrawTriggers id s).win = s.win ∧
    (withdrawTriggers id s).org = s.org ∧ (withdrawTriggers id s).xmit = s.xmit ∧
    (withdrawTriggers id s).entries = s.entries ∧ (withdrawTriggers id s).buffer = s.buffer ∧
    (withdrawTriggers id s).slots = s.slots ∧ (withdrawTriggers id s).trg = s.trg ∧
    (withdrawTriggers id s).mgmt = s.mgmt ∧ (withdrawTriggers id s).inReset = s.inReset ∧
    (withdrawTriggers id s).pending = s.pending := by
  unfold withdrawTriggers
  and_intros <;>
    exact forPorts_keeps _ (by intro x s; simp) _

/-- `pulseTriggers` moves nothing but the slots. -/
@[simp] theorem pulseTriggers_frame (l : Set8) (s : State) :
    (pulseTriggers l s).tb = s.tb ∧ (pulseTriggers l s).win = s.win ∧ (pulseTriggers l s).org = s.org ∧
    (pulseTriggers l s).ports = s.ports ∧ (pulseTriggers l s).xmit = s.xmit ∧
    (pulseTriggers l s).entries = s.entries ∧ (pulseTriggers l s).buffer = s.buffer ∧
    (pulseTriggers l s).trg = s.trg ∧ (pulseTriggers l s).mgmt = s.mgmt ∧
    (pulseTriggers l s).inReset = s.inReset ∧ (pulseTriggers l s).pending = s.pending := by
  unfold pulseTriggers
  and_intros <;>
    exact forSlots_keeps _ (by intro x s; simp) _

/-- `fireEffects` moves nothing but the stream table and the slots. -/
@[simp] theorem fireEffects_frame (id : TrigId) (l : Set8) (s : State) :
    (fireEffects id l s).tb = s.tb ∧ (fireEffects id l s).win = s.win ∧ (fireEffects id l s).org = s.org ∧
    (fireEffects id l s).ports = s.ports ∧ (fireEffects id l s).xmit = s.xmit ∧
    (fireEffects id l s).buffer = s.buffer ∧ (fireEffects id l s).trg = s.trg ∧
    (fireEffects id l s).mgmt = s.mgmt ∧ (fireEffects id l s).inReset = s.inReset ∧
    (fireEffects id l s).pending = s.pending := by
  simp [fireEffects]

/-- `dequeue` moves nothing but the trigger unit. -/
@[simp] theorem dequeue_frame (id : TrigId) (s : State) :
    (dequeue id s).tb = s.tb ∧ (dequeue id s).win = s.win ∧ (dequeue id s).org = s.org ∧
    (dequeue id s).ports = s.ports ∧ (dequeue id s).xmit = s.xmit ∧ (dequeue id s).entries = s.entries ∧
    (dequeue id s).buffer = s.buffer ∧ (dequeue id s).slots = s.slots ∧ (dequeue id s).mgmt = s.mgmt ∧
    (dequeue id s).inReset = s.inReset ∧ (dequeue id s).pending = s.pending := by
  simp [dequeue]

/-- `fireEntry` moves nothing but the ports, the stream table, the slots, the trigger unit and the management port. -/
@[simp] theorem fireEntry_frame (x : TrigEntry) (s : State) :
    (fireEntry x s).tb = s.tb ∧ (fireEntry x s).win = s.win ∧ (fireEntry x s).org = s.org ∧
    (fireEntry x s).xmit = s.xmit ∧ (fireEntry x s).buffer = s.buffer ∧
    (fireEntry x s).inReset = s.inReset ∧ (fireEntry x s).pending = s.pending := by
  simp [fireEntry]

/-- `judgementNotice` moves nothing but the trigger unit and the management port. -/
@[simp] theorem judgementNotice_frame (id : TrigId) (l : Set8) (n : Nat) (s : State) :
    (judgementNotice id l n s).tb = s.tb ∧ (judgementNotice id l n s).win = s.win ∧
    (judgementNotice id l n s).org = s.org ∧ (judgementNotice id l n s).ports = s.ports ∧
    (judgementNotice id l n s).xmit = s.xmit ∧ (judgementNotice id l n s).entries = s.entries ∧
    (judgementNotice id l n s).buffer = s.buffer ∧ (judgementNotice id l n s).slots = s.slots ∧
    (judgementNotice id l n s).inReset = s.inReset ∧ (judgementNotice id l n s).pending = s.pending := by
  simp only [judgementNotice]
  (repeat' split) <;> simp

/-- `staleNotice` moves nothing but the trigger unit and the management port. -/
@[simp] theorem staleNotice_frame (id : TrigId) (n : Nat) (a : Option PortId) (s : State) :
    (staleNotice id n a s).tb = s.tb ∧ (staleNotice id n a s).win = s.win ∧ (staleNotice id n a s).org = s.org ∧
    (staleNotice id n a s).ports = s.ports ∧ (staleNotice id n a s).xmit = s.xmit ∧
    (staleNotice id n a s).entries = s.entries ∧ (staleNotice id n a s).buffer = s.buffer ∧
    (staleNotice id n a s).slots = s.slots ∧ (staleNotice id n a s).inReset = s.inReset ∧
    (staleNotice id n a s).pending = s.pending := by
  simp [staleNotice]

/-- `takeTrigger` moves nothing but the ports, the stream table, the slots, the trigger unit and the management
port. -/
@[simp] theorem takeTrigger_frame (c : TriggerCell) (a : Option PortId) (s : State) :
    (takeTrigger c a s).1.tb = s.tb ∧ (takeTrigger c a s).1.win = s.win ∧ (takeTrigger c a s).1.org = s.org ∧
    (takeTrigger c a s).1.xmit = s.xmit ∧ (takeTrigger c a s).1.buffer = s.buffer ∧
    (takeTrigger c a s).1.inReset = s.inReset ∧ (takeTrigger c a s).1.pending = s.pending := by
  simp only [takeTrigger]
  (repeat' split) <;> simp

/-- `addTombstone` moves nothing but the ports and the trigger unit. -/
@[simp] theorem addTombstone_frame (c : CancelCell) (a : Option PortId) (s : State) :
    (addTombstone c a s).tb = s.tb ∧ (addTombstone c a s).win = s.win ∧ (addTombstone c a s).org = s.org ∧
    (addTombstone c a s).xmit = s.xmit ∧ (addTombstone c a s).entries = s.entries ∧
    (addTombstone c a s).buffer = s.buffer ∧ (addTombstone c a s).slots = s.slots ∧
    (addTombstone c a s).mgmt = s.mgmt ∧ (addTombstone c a s).inReset = s.inReset ∧
    (addTombstone c a s).pending = s.pending := by
  simp [addTombstone]

/-- `judgeCancel` moves nothing but the ports, the trigger unit and the management port. -/
@[simp] theorem judgeCancel_frame (c : CancelCell) (a : Option PortId) (s : State) :
    (judgeCancel c a s).1.tb = s.tb ∧ (judgeCancel c a s).1.win = s.win ∧ (judgeCancel c a s).1.org = s.org ∧
    (judgeCancel c a s).1.xmit = s.xmit ∧ (judgeCancel c a s).1.entries = s.entries ∧
    (judgeCancel c a s).1.buffer = s.buffer ∧ (judgeCancel c a s).1.slots = s.slots ∧
    (judgeCancel c a s).1.inReset = s.inReset ∧ (judgeCancel c a s).1.pending = s.pending := by
  simp only [judgeCancel]
  (repeat' split) <;> simp

/-- `rejudge` moves nothing but the ports, the stream table, the slots, the trigger unit and the management port. -/
@[simp] theorem rejudge_frame (x : TrigEntry) (s : State) :
    (rejudge x s).tb = s.tb ∧ (rejudge x s).win = s.win ∧ (rejudge x s).org = s.org ∧
    (rejudge x s).xmit = s.xmit ∧ (rejudge x s).buffer = s.buffer ∧ (rejudge x s).inReset = s.inReset ∧
    (rejudge x s).pending = s.pending := by
  simp only [rejudge]
  (repeat' split) <;> simp

/-- `stepTriggers` moves nothing but the ports, the stream table, the slots, the trigger unit and the
management port. -/
@[simp] theorem stepTriggers_frame (s : State) :
    (stepTriggers s).tb = s.tb ∧ (stepTriggers s).win = s.win ∧ (stepTriggers s).org = s.org ∧
    (stepTriggers s).xmit = s.xmit ∧ (stepTriggers s).buffer = s.buffer ∧
    (stepTriggers s).inReset = s.inReset ∧ (stepTriggers s).pending = s.pending := by
  unfold stepTriggers
  and_intros <;> exact foldl_keeps _ (fun x s => by simp) _ _

/-- `reportDeparture` moves nothing but the trigger unit. -/
@[simp] theorem reportDeparture_frame (id : TrigId) (p : PortId) (s : State) :
    (reportDeparture id p s).tb = s.tb ∧ (reportDeparture id p s).win = s.win ∧
    (reportDeparture id p s).org = s.org ∧ (reportDeparture id p s).ports = s.ports ∧
    (reportDeparture id p s).xmit = s.xmit ∧ (reportDeparture id p s).entries = s.entries ∧
    (reportDeparture id p s).buffer = s.buffer ∧ (reportDeparture id p s).slots = s.slots ∧
    (reportDeparture id p s).mgmt = s.mgmt ∧ (reportDeparture id p s).inReset = s.inReset ∧
    (reportDeparture id p s).pending = s.pending := by
  simp [reportDeparture]

/-- `dropForwards` moves nothing but the trigger unit. -/
@[simp] theorem dropForwards_frame (p : PortId) (s : State) :
    (dropForwards p s).tb = s.tb ∧ (dropForwards p s).win = s.win ∧ (dropForwards p s).org = s.org ∧
    (dropForwards p s).ports = s.ports ∧ (dropForwards p s).xmit = s.xmit ∧
    (dropForwards p s).entries = s.entries ∧ (dropForwards p s).buffer = s.buffer ∧
    (dropForwards p s).slots = s.slots ∧ (dropForwards p s).mgmt = s.mgmt ∧
    (dropForwards p s).inReset = s.inReset ∧ (dropForwards p s).pending = s.pending := by
  simp [dropForwards]

/-- `placeOwedQueue` moves nothing but the ports and the trigger unit. -/
@[simp] theorem placeOwedQueue_frame (p : PortId) (s : State) :
    (placeOwedQueue p s).tb = s.tb ∧ (placeOwedQueue p s).win = s.win ∧ (placeOwedQueue p s).org = s.org ∧
    (placeOwedQueue p s).xmit = s.xmit ∧ (placeOwedQueue p s).entries = s.entries ∧
    (placeOwedQueue p s).buffer = s.buffer ∧ (placeOwedQueue p s).slots = s.slots ∧
    (placeOwedQueue p s).mgmt = s.mgmt ∧ (placeOwedQueue p s).inReset = s.inReset ∧
    (placeOwedQueue p s).pending = s.pending := by
  unfold placeOwedQueue
  and_intros <;>
    exact foldl_keeps _ (by intro x s; (repeat' split) <;> simp) _ _

/-- `placeOwedHistory` moves nothing but the ports and the trigger unit. -/
@[simp] theorem placeOwedHistory_frame (p : PortId) (s : State) :
    (placeOwedHistory p s).tb = s.tb ∧ (placeOwedHistory p s).win = s.win ∧ (placeOwedHistory p s).org = s.org ∧
    (placeOwedHistory p s).xmit = s.xmit ∧ (placeOwedHistory p s).entries = s.entries ∧
    (placeOwedHistory p s).buffer = s.buffer ∧ (placeOwedHistory p s).slots = s.slots ∧
    (placeOwedHistory p s).mgmt = s.mgmt ∧ (placeOwedHistory p s).inReset = s.inReset ∧
    (placeOwedHistory p s).pending = s.pending := by
  unfold placeOwedHistory
  and_intros <;>
    exact foldl_keeps _ (by intro x s; (repeat' split) <;> simp) _ _

/-! ### Phase windows -/

/-- `State.updQual` moves nothing but the phase window unit. -/
@[simp] theorem State.updQual_frame (n : QualName) (f : Qualifier → Qualifier) (s : State) :
    (State.updQual n f s).tb = s.tb ∧ (State.updQual n f s).org = s.org ∧
    (State.updQual n f s).ports = s.ports ∧ (State.updQual n f s).xmit = s.xmit ∧
    (State.updQual n f s).entries = s.entries ∧ (State.updQual n f s).buffer = s.buffer ∧
    (State.updQual n f s).slots = s.slots ∧ (State.updQual n f s).trg = s.trg ∧
    (State.updQual n f s).mgmt = s.mgmt ∧ (State.updQual n f s).inReset = s.inReset ∧
    (State.updQual n f s).pending = s.pending := by
  cases n <;> simp [State.updQual]

/-- `qualNotice` moves nothing but the management port. -/
@[simp] theorem qualNotice_frame (n : QualName) (c : QualCause) (x : Int) (s : State) :
    (qualNotice n c x s).tb = s.tb ∧ (qualNotice n c x s).win = s.win ∧ (qualNotice n c x s).org = s.org ∧
    (qualNotice n c x s).ports = s.ports ∧ (qualNotice n c x s).xmit = s.xmit ∧
    (qualNotice n c x s).entries = s.entries ∧ (qualNotice n c x s).buffer = s.buffer ∧
    (qualNotice n c x s).slots = s.slots ∧ (qualNotice n c x s).trg = s.trg ∧
    (qualNotice n c x s).inReset = s.inReset ∧ (qualNotice n c x s).pending = s.pending := by
  simp [qualNotice]

/-- `setQual` moves nothing but the phase window unit and the management port. -/
@[simp] theorem setQual_frame (n : QualName) (v : Bool) (c : QualCause) (s : State) :
    (setQual n v c s).tb = s.tb ∧ (setQual n v c s).org = s.org ∧ (setQual n v c s).ports = s.ports ∧
    (setQual n v c s).xmit = s.xmit ∧ (setQual n v c s).entries = s.entries ∧
    (setQual n v c s).buffer = s.buffer ∧ (setQual n v c s).slots = s.slots ∧ (setQual n v c s).trg = s.trg ∧
    (setQual n v c s).inReset = s.inReset ∧ (setQual n v c s).pending = s.pending := by
  simp only [setQual]
  (repeat' split) <;> simp

/-- `dropQual` moves nothing but the phase window unit and the management port. -/
@[simp] theorem dropQual_frame (c : QualCause) (n : QualName) (s : State) :
    (dropQual c n s).tb = s.tb ∧ (dropQual c n s).org = s.org ∧ (dropQual c n s).ports = s.ports ∧
    (dropQual c n s).xmit = s.xmit ∧ (dropQual c n s).entries = s.entries ∧ (dropQual c n s).buffer = s.buffer ∧
    (dropQual c n s).slots = s.slots ∧ (dropQual c n s).trg = s.trg ∧ (dropQual c n s).inReset = s.inReset ∧
    (dropQual c n s).pending = s.pending := by
  simp only [dropQual]
  (repeat' split) <;> simp

/-- `rootRule` moves nothing but the phase window unit and the management port. -/
@[simp] theorem rootRule_frame (c : QualCause) (n : QualName) (s : State) :
    (rootRule c n s).tb = s.tb ∧ (rootRule c n s).org = s.org ∧ (rootRule c n s).ports = s.ports ∧
    (rootRule c n s).xmit = s.xmit ∧ (rootRule c n s).entries = s.entries ∧ (rootRule c n s).buffer = s.buffer ∧
    (rootRule c n s).slots = s.slots ∧ (rootRule c n s).trg = s.trg ∧ (rootRule c n s).inReset = s.inReset ∧
    (rootRule c n s).pending = s.pending := by
  simp only [rootRule]
  (repeat' split) <;> simp

/-- `judgeWindow` moves nothing but the phase window unit and the management port. -/
@[simp] theorem judgeWindow_frame (v : Bool) (x e : Int) (w : WinId) (s : State) :
    (judgeWindow v x e w s).tb = s.tb ∧ (judgeWindow v x e w s).org = s.org ∧
    (judgeWindow v x e w s).ports = s.ports ∧ (judgeWindow v x e w s).xmit = s.xmit ∧
    (judgeWindow v x e w s).entries = s.entries ∧ (judgeWindow v x e w s).buffer = s.buffer ∧
    (judgeWindow v x e w s).slots = s.slots ∧ (judgeWindow v x e w s).trg = s.trg ∧
    (judgeWindow v x e w s).inReset = s.inReset ∧ (judgeWindow v x e w s).pending = s.pending := by
  simp only [judgeWindow]
  (repeat' split) <;> simp

/-- `judgeQual` moves nothing but the phase window unit and the management port. -/
@[simp] theorem judgeQual_frame (v : Bool) (x e : Int) (n : QualName) (s : State) :
    (judgeQual v x e n s).tb = s.tb ∧ (judgeQual v x e n s).org = s.org ∧
    (judgeQual v x e n s).ports = s.ports ∧ (judgeQual v x e n s).xmit = s.xmit ∧
    (judgeQual v x e n s).entries = s.entries ∧ (judgeQual v x e n s).buffer = s.buffer ∧
    (judgeQual v x e n s).slots = s.slots ∧ (judgeQual v x e n s).trg = s.trg ∧
    (judgeQual v x e n s).inReset = s.inReset ∧ (judgeQual v x e n s).pending = s.pending := by
  simp only [judgeQual]
  (repeat' split) <;> simp

/-- `evaluate` moves nothing but the phase window unit and the management port. -/
@[simp] theorem evaluate_frame (e : Int) (v : ServoState) (b : Bool) (s : State) :
    (evaluate e v b s).tb = s.tb ∧ (evaluate e v b s).org = s.org ∧ (evaluate e v b s).ports = s.ports ∧
    (evaluate e v b s).xmit = s.xmit ∧ (evaluate e v b s).entries = s.entries ∧
    (evaluate e v b s).buffer = s.buffer ∧ (evaluate e v b s).slots = s.slots ∧ (evaluate e v b s).trg = s.trg ∧
    (evaluate e v b s).inReset = s.inReset ∧ (evaluate e v b s).pending = s.pending := by
  unfold evaluate
  simp only [State.updWin_tb, State.updWin_org, State.updWin_ports, State.updWin_xmit, State.updWin_entries,
    State.updWin_buffer, State.updWin_slots, State.updWin_trg, State.updWin_inReset, State.updWin_pending]
  and_intros <;> split <;> (try simp only [judgeQual_frame]) <;>
    exact (foldl_keeps _ (fun x s => by simp) _ _).trans rfl

/-- `clearPrevValid` moves nothing but the phase window unit. -/
@[simp] theorem clearPrevValid_frame (s : State) :
    (clearPrevValid s).tb = s.tb ∧ (clearPrevValid s).org = s.org ∧ (clearPrevValid s).ports = s.ports ∧
    (clearPrevValid s).xmit = s.xmit ∧ (clearPrevValid s).entries = s.entries ∧
    (clearPrevValid s).buffer = s.buffer ∧ (clearPrevValid s).slots = s.slots ∧ (clearPrevValid s).trg = s.trg ∧
    (clearPrevValid s).mgmt = s.mgmt ∧ (clearPrevValid s).inReset = s.inReset ∧
    (clearPrevValid s).pending = s.pending := by
  simp [clearPrevValid]

/-- `dropQuals` moves nothing but the phase window unit and the management port. -/
@[simp] theorem dropQuals_frame (c : QualCause) (s : State) :
    (dropQuals c s).tb = s.tb ∧ (dropQuals c s).org = s.org ∧ (dropQuals c s).ports = s.ports ∧
    (dropQuals c s).xmit = s.xmit ∧ (dropQuals c s).entries = s.entries ∧ (dropQuals c s).buffer = s.buffer ∧
    (dropQuals c s).slots = s.slots ∧ (dropQuals c s).trg = s.trg ∧ (dropQuals c s).inReset = s.inReset ∧
    (dropQuals c s).pending = s.pending := by
  simp [dropQuals]

/-- `windowsFault` moves nothing but the phase window unit and the management port. -/
@[simp] theorem windowsFault_frame (s : State) :
    (windowsFault s).tb = s.tb ∧ (windowsFault s).org = s.org ∧ (windowsFault s).ports = s.ports ∧
    (windowsFault s).xmit = s.xmit ∧ (windowsFault s).entries = s.entries ∧ (windowsFault s).buffer = s.buffer ∧
    (windowsFault s).slots = s.slots ∧ (windowsFault s).trg = s.trg ∧ (windowsFault s).inReset = s.inReset ∧
    (windowsFault s).pending = s.pending := by
  simp only [windowsFault]
  (repeat' split) <;> simp

/-- `windowsServo` moves nothing but the phase window unit and the management port. -/
@[simp] theorem windowsServo_frame (a b : ServoState) (s : State) :
    (windowsServo a b s).tb = s.tb ∧ (windowsServo a b s).org = s.org ∧ (windowsServo a b s).ports = s.ports ∧
    (windowsServo a b s).xmit = s.xmit ∧ (windowsServo a b s).entries = s.entries ∧
    (windowsServo a b s).buffer = s.buffer ∧ (windowsServo a b s).slots = s.slots ∧
    (windowsServo a b s).trg = s.trg ∧ (windowsServo a b s).inReset = s.inReset ∧
    (windowsServo a b s).pending = s.pending := by
  simp only [windowsServo]
  (repeat' split) <;> simp

/-- `windowsLimit` moves nothing but the phase window unit and the management port. -/
@[simp] theorem windowsLimit_frame (s : State) :
    (windowsLimit s).tb = s.tb ∧ (windowsLimit s).org = s.org ∧ (windowsLimit s).ports = s.ports ∧
    (windowsLimit s).xmit = s.xmit ∧ (windowsLimit s).entries = s.entries ∧ (windowsLimit s).buffer = s.buffer ∧
    (windowsLimit s).slots = s.slots ∧ (windowsLimit s).trg = s.trg ∧ (windowsLimit s).inReset = s.inReset ∧
    (windowsLimit s).pending = s.pending := by
  simp [windowsLimit]

/-- `windowsRoot` moves nothing but the phase window unit and the management port. -/
@[simp] theorem windowsRoot_frame (s : State) :
    (windowsRoot s).tb = s.tb ∧ (windowsRoot s).org = s.org ∧ (windowsRoot s).ports = s.ports ∧
    (windowsRoot s).xmit = s.xmit ∧ (windowsRoot s).entries = s.entries ∧ (windowsRoot s).buffer = s.buffer ∧
    (windowsRoot s).slots = s.slots ∧ (windowsRoot s).trg = s.trg ∧ (windowsRoot s).inReset = s.inReset ∧
    (windowsRoot s).pending = s.pending := by
  simp [windowsRoot]

/-- `windowsOrigin` moves nothing but the phase window unit and the management port. -/
@[simp] theorem windowsOrigin_frame (s : State) :
    (windowsOrigin s).tb = s.tb ∧ (windowsOrigin s).org = s.org ∧ (windowsOrigin s).ports = s.ports ∧
    (windowsOrigin s).xmit = s.xmit ∧ (windowsOrigin s).entries = s.entries ∧
    (windowsOrigin s).buffer = s.buffer ∧ (windowsOrigin s).slots = s.slots ∧ (windowsOrigin s).trg = s.trg ∧
    (windowsOrigin s).inReset = s.inReset ∧ (windowsOrigin s).pending = s.pending := by
  simp [windowsOrigin]

/-! ### Timebase and origin -/

/-- `stepBy` moves nothing but the timebase unit, the phase window unit, the ports, the stream table, the
slots, the trigger unit and the management port. -/
@[simp] theorem stepBy_frame (c : StepCause) (r : SubTick) (s : State) :
    (stepBy c r s).org = s.org ∧ (stepBy c r s).xmit = s.xmit ∧ (stepBy c r s).buffer = s.buffer ∧
    (stepBy c r s).inReset = s.inReset ∧ (stepBy c r s).pending = s.pending := by
  simp [stepBy]

/-- `setServo` moves nothing but the timebase unit, the phase window unit and the management port. -/
@[simp] theorem setServo_frame (v : ServoState) (c : ServoCause) (s : State) :
    (setServo v c s).org = s.org ∧ (setServo v c s).ports = s.ports ∧ (setServo v c s).xmit = s.xmit ∧
    (setServo v c s).entries = s.entries ∧ (setServo v c s).buffer = s.buffer ∧
    (setServo v c s).slots = s.slots ∧ (setServo v c s).trg = s.trg ∧ (setServo v c s).inReset = s.inReset ∧
    (setServo v c s).pending = s.pending := by
  simp only [setServo]
  (repeat' split) <;> simp

/-- `enterAcquire` moves nothing but the timebase unit, the phase window unit and the management port. -/
@[simp] theorem enterAcquire_frame (c : ServoCause) (s : State) :
    (enterAcquire c s).org = s.org ∧ (enterAcquire c s).ports = s.ports ∧ (enterAcquire c s).xmit = s.xmit ∧
    (enterAcquire c s).entries = s.entries ∧ (enterAcquire c s).buffer = s.buffer ∧
    (enterAcquire c s).slots = s.slots ∧ (enterAcquire c s).trg = s.trg ∧
    (enterAcquire c s).inReset = s.inReset ∧ (enterAcquire c s).pending = s.pending := by
  simp [enterAcquire]

/-- `enterHoldover` moves nothing but the timebase unit, the phase window unit and the management port. -/
@[simp] theorem enterHoldover_frame (c : ServoCause) (s : State) :
    (enterHoldover c s).org = s.org ∧ (enterHoldover c s).ports = s.ports ∧ (enterHoldover c s).xmit = s.xmit ∧
    (enterHoldover c s).entries = s.entries ∧ (enterHoldover c s).buffer = s.buffer ∧
    (enterHoldover c s).slots = s.slots ∧ (enterHoldover c s).trg = s.trg ∧
    (enterHoldover c s).inReset = s.inReset ∧ (enterHoldover c s).pending = s.pending := by
  simp only [enterHoldover]
  (repeat' split) <;> simp

/-- `refChange` moves nothing but the timebase unit, the phase window unit and the management port. -/
@[simp] theorem refChange_frame (r : Option PortId) (s : State) :
    (refChange r s).org = s.org ∧ (refChange r s).ports = s.ports ∧ (refChange r s).xmit = s.xmit ∧
    (refChange r s).entries = s.entries ∧ (refChange r s).buffer = s.buffer ∧ (refChange r s).slots = s.slots ∧
    (refChange r s).trg = s.trg ∧ (refChange r s).inReset = s.inReset ∧ (refChange r s).pending = s.pending := by
  simp only [refChange]
  (repeat' split) <;> simp

/-- `dropReference` moves nothing but the timebase unit, the phase window unit and the management port. -/
@[simp] theorem dropReference_frame (p : PortId) (s : State) :
    (dropReference p s).org = s.org ∧ (dropReference p s).ports = s.ports ∧ (dropReference p s).xmit = s.xmit ∧
    (dropReference p s).entries = s.entries ∧ (dropReference p s).buffer = s.buffer ∧
    (dropReference p s).slots = s.slots ∧ (dropReference p s).trg = s.trg ∧
    (dropReference p s).inReset = s.inReset ∧ (dropReference p s).pending = s.pending := by
  simp only [dropReference]
  (repeat' split) <;> simp

/-- `markerFault` moves nothing but the timebase unit, the phase window unit and the management port. -/
@[simp] theorem markerFault_frame (c : FaultCause) (s : State) :
    (markerFault c s).org = s.org ∧ (markerFault c s).ports = s.ports ∧ (markerFault c s).xmit = s.xmit ∧
    (markerFault c s).entries = s.entries ∧ (markerFault c s).buffer = s.buffer ∧
    (markerFault c s).slots = s.slots ∧ (markerFault c s).trg = s.trg ∧
    (markerFault c s).inReset = s.inReset ∧ (markerFault c s).pending = s.pending := by
  simp [markerFault]

/-- `trackCorrect` moves nothing but the timebase unit, the phase window unit and the management port. -/
@[simp] theorem trackCorrect_frame (e : Int) (s : State) :
    (trackCorrect e s).org = s.org ∧ (trackCorrect e s).ports = s.ports ∧ (trackCorrect e s).xmit = s.xmit ∧
    (trackCorrect e s).entries = s.entries ∧ (trackCorrect e s).buffer = s.buffer ∧
    (trackCorrect e s).slots = s.slots ∧ (trackCorrect e s).trg = s.trg ∧
    (trackCorrect e s).inReset = s.inReset ∧ (trackCorrect e s).pending = s.pending := by
  simp [trackCorrect]

/-- `useAcquire` moves nothing but the timebase unit, the phase window unit, the ports, the stream table, the
slots, the trigger unit and the management port. -/
@[simp] theorem useAcquire_frame (e : Int) (s : State) :
    (useAcquire e s).org = s.org ∧ (useAcquire e s).xmit = s.xmit ∧ (useAcquire e s).buffer = s.buffer ∧
    (useAcquire e s).inReset = s.inReset ∧ (useAcquire e s).pending = s.pending := by
  simp only [useAcquire]
  (repeat' split) <;> simp

/-- `useTrack` moves nothing but the timebase unit, the phase window unit, the ports, the stream table, the
slots, the trigger unit and the management port. -/
@[simp] theorem useTrack_frame (e : Int) (s : State) :
    (useTrack e s).org = s.org ∧ (useTrack e s).xmit = s.xmit ∧ (useTrack e s).buffer = s.buffer ∧
    (useTrack e s).inReset = s.inReset ∧ (useTrack e s).pending = s.pending := by
  simp only [useTrack]
  (repeat' split) <;> simp

/-- `setOrigin` moves nothing but the origin unit and the management port. -/
@[simp] theorem setOrigin_frame (v : OriginState) (c : OriginCause) (s : State) :
    (setOrigin v c s).tb = s.tb ∧ (setOrigin v c s).win = s.win ∧ (setOrigin v c s).ports = s.ports ∧
    (setOrigin v c s).xmit = s.xmit ∧ (setOrigin v c s).entries = s.entries ∧
    (setOrigin v c s).buffer = s.buffer ∧ (setOrigin v c s).slots = s.slots ∧ (setOrigin v c s).trg = s.trg ∧
    (setOrigin v c s).inReset = s.inReset ∧ (setOrigin v c s).pending = s.pending := by
  simp only [setOrigin]
  (repeat' split) <;> simp

/-- `setAligned` moves nothing but the phase window unit, the origin unit and the management port. -/
@[simp] theorem setAligned_frame (v : Bool) (s : State) :
    (setAligned v s).tb = s.tb ∧ (setAligned v s).ports = s.ports ∧ (setAligned v s).xmit = s.xmit ∧
    (setAligned v s).entries = s.entries ∧ (setAligned v s).buffer = s.buffer ∧
    (setAligned v s).slots = s.slots ∧ (setAligned v s).trg = s.trg ∧ (setAligned v s).inReset = s.inReset ∧
    (setAligned v s).pending = s.pending := by
  simp only [setAligned]
  (repeat' split) <;> simp

/-- `originBoundary` moves nothing but the phase window unit, the origin unit and the management port. -/
@[simp] theorem originBoundary_frame (s : State) :
    (originBoundary s).tb = s.tb ∧ (originBoundary s).ports = s.ports ∧ (originBoundary s).xmit = s.xmit ∧
    (originBoundary s).entries = s.entries ∧ (originBoundary s).buffer = s.buffer ∧
    (originBoundary s).slots = s.slots ∧ (originBoundary s).trg = s.trg ∧
    (originBoundary s).inReset = s.inReset ∧ (originBoundary s).pending = s.pending := by
  simp only [originBoundary]
  (repeat' split) <;> simp

/-- `originToMember` moves nothing but the phase window unit, the origin unit and the management port. -/
@[simp] theorem originToMember_frame (s : State) :
    (originToMember s).tb = s.tb ∧ (originToMember s).ports = s.ports ∧ (originToMember s).xmit = s.xmit ∧
    (originToMember s).entries = s.entries ∧ (originToMember s).buffer = s.buffer ∧
    (originToMember s).slots = s.slots ∧ (originToMember s).trg = s.trg ∧
    (originToMember s).inReset = s.inReset ∧ (originToMember s).pending = s.pending := by
  simp [originToMember]

/-! ### Ports -/

/-- `setLink` moves nothing but the ports. -/
@[simp] theorem setLink_frame (p : PortId) (l : LinkState) (s : State) :
    (setLink p l s).tb = s.tb ∧ (setLink p l s).win = s.win ∧ (setLink p l s).org = s.org ∧
    (setLink p l s).xmit = s.xmit ∧ (setLink p l s).entries = s.entries ∧ (setLink p l s).buffer = s.buffer ∧
    (setLink p l s).slots = s.slots ∧ (setLink p l s).trg = s.trg ∧ (setLink p l s).mgmt = s.mgmt ∧
    (setLink p l s).inReset = s.inReset ∧ (setLink p l s).pending = s.pending := by
  simp [setLink]

/-- `waitSignal` moves nothing but the ports. -/
@[simp] theorem waitSignal_frame (p : PortId) (s : State) :
    (waitSignal p s).tb = s.tb ∧ (waitSignal p s).win = s.win ∧ (waitSignal p s).org = s.org ∧
    (waitSignal p s).xmit = s.xmit ∧ (waitSignal p s).entries = s.entries ∧ (waitSignal p s).buffer = s.buffer ∧
    (waitSignal p s).slots = s.slots ∧ (waitSignal p s).trg = s.trg ∧ (waitSignal p s).mgmt = s.mgmt ∧
    (waitSignal p s).inReset = s.inReset ∧ (waitSignal p s).pending = s.pending := by
  simp [waitSignal]

/-- `enterLost` moves nothing but the ports. -/
@[simp] theorem enterLost_frame (p : PortId) (s : State) :
    (enterLost p s).tb = s.tb ∧ (enterLost p s).win = s.win ∧ (enterLost p s).org = s.org ∧
    (enterLost p s).xmit = s.xmit ∧ (enterLost p s).entries = s.entries ∧ (enterLost p s).buffer = s.buffer ∧
    (enterLost p s).slots = s.slots ∧ (enterLost p s).trg = s.trg ∧ (enterLost p s).mgmt = s.mgmt ∧
    (enterLost p s).inReset = s.inReset ∧ (enterLost p s).pending = s.pending := by
  simp only [enterLost]
  (repeat' split) <;> simp

/-- `abandonTraining` moves nothing but the ports. -/
@[simp] theorem abandonTraining_frame (p : PortId) (s : State) :
    (abandonTraining p s).tb = s.tb ∧ (abandonTraining p s).win = s.win ∧ (abandonTraining p s).org = s.org ∧
    (abandonTraining p s).xmit = s.xmit ∧ (abandonTraining p s).entries = s.entries ∧
    (abandonTraining p s).buffer = s.buffer ∧ (abandonTraining p s).slots = s.slots ∧
    (abandonTraining p s).trg = s.trg ∧ (abandonTraining p s).mgmt = s.mgmt ∧
    (abandonTraining p s).inReset = s.inReset ∧ (abandonTraining p s).pending = s.pending := by
  simp [abandonTraining]

/-- `trainingLost` moves nothing but the ports and the management port. -/
@[simp] theorem trainingLost_frame (p : PortId) (s : State) :
    (trainingLost p s).tb = s.tb ∧ (trainingLost p s).win = s.win ∧ (trainingLost p s).org = s.org ∧
    (trainingLost p s).xmit = s.xmit ∧ (trainingLost p s).entries = s.entries ∧
    (trainingLost p s).buffer = s.buffer ∧ (trainingLost p s).slots = s.slots ∧ (trainingLost p s).trg = s.trg ∧
    (trainingLost p s).inReset = s.inReset ∧ (trainingLost p s).pending = s.pending := by
  simp [trainingLost]

/-- `enterTraining` moves nothing but the ports and the management port. -/
@[simp] theorem enterTraining_frame (p : PortId) (s : State) :
    (enterTraining p s).tb = s.tb ∧ (enterTraining p s).win = s.win ∧ (enterTraining p s).org = s.org ∧
    (enterTraining p s).xmit = s.xmit ∧ (enterTraining p s).entries = s.entries ∧
    (enterTraining p s).buffer = s.buffer ∧ (enterTraining p s).slots = s.slots ∧
    (enterTraining p s).trg = s.trg ∧ (enterTraining p s).inReset = s.inReset ∧
    (enterTraining p s).pending = s.pending := by
  simp only [enterTraining]
  (repeat' split) <;> simp

/-- `enterWaiting` moves nothing but the ports and the management port. -/
@[simp] theorem enterWaiting_frame (p : PortId) (s : State) :
    (enterWaiting p s).tb = s.tb ∧ (enterWaiting p s).win = s.win ∧ (enterWaiting p s).org = s.org ∧
    (enterWaiting p s).xmit = s.xmit ∧ (enterWaiting p s).entries = s.entries ∧
    (enterWaiting p s).buffer = s.buffer ∧ (enterWaiting p s).slots = s.slots ∧ (enterWaiting p s).trg = s.trg ∧
    (enterWaiting p s).inReset = s.inReset ∧ (enterWaiting p s).pending = s.pending := by
  simp only [enterWaiting]
  (repeat' split) <;> simp

/-- `teardown` moves nothing but the timebase unit, the phase window unit, the ports, the stream table, the
slots, the trigger unit and the management port. -/
@[simp] theorem teardown_frame (p : PortId) (s : State) :
    (teardown p s).org = s.org ∧ (teardown p s).xmit = s.xmit ∧ (teardown p s).buffer = s.buffer ∧
    (teardown p s).inReset = s.inReset ∧ (teardown p s).pending = s.pending := by
  simp [teardown]

/-- `isolate` moves nothing but the timebase unit, the phase window unit, the ports, the stream table, the
slots, the trigger unit and the management port. -/
@[simp] theorem isolate_frame (p : PortId) (c : IsoCause) (x : Int) (s : State) :
    (isolate p c x s).org = s.org ∧ (isolate p c x s).xmit = s.xmit ∧ (isolate p c x s).buffer = s.buffer ∧
    (isolate p c x s).inReset = s.inReset ∧ (isolate p c x s).pending = s.pending := by
  simp only [isolate]
  (repeat' split) <;> simp

/-- `enterActive` moves nothing but the ports, the stream table and the management port. -/
@[simp] theorem enterActive_frame (p : PortId) (d : Nat) (s : State) :
    (enterActive p d s).tb = s.tb ∧ (enterActive p d s).win = s.win ∧ (enterActive p d s).org = s.org ∧
    (enterActive p d s).xmit = s.xmit ∧ (enterActive p d s).buffer = s.buffer ∧
    (enterActive p d s).slots = s.slots ∧ (enterActive p d s).trg = s.trg ∧
    (enterActive p d s).inReset = s.inReset ∧ (enterActive p d s).pending = s.pending := by
  simp [enterActive]

/-- `enterDraining` moves nothing but the timebase unit, the phase window unit, the ports, the stream table and
the management port. -/
@[simp] theorem enterDraining_frame (n : Nat) (p : PortId) (s : State) :
    (enterDraining n p s).org = s.org ∧ (enterDraining n p s).xmit = s.xmit ∧
    (enterDraining n p s).buffer = s.buffer ∧ (enterDraining n p s).slots = s.slots ∧
    (enterDraining n p s).trg = s.trg ∧ (enterDraining n p s).inReset = s.inReset ∧
    (enterDraining n p s).pending = s.pending := by
  simp [enterDraining]

/-! ### Slots -/

/-- `slotDeparts` moves nothing but the ports, the stream table, the slots and the management port. -/
@[simp] theorem slotDeparts_frame (k : SlotId) (s : State) :
    (slotDeparts k s).tb = s.tb ∧ (slotDeparts k s).win = s.win ∧ (slotDeparts k s).org = s.org ∧
    (slotDeparts k s).xmit = s.xmit ∧ (slotDeparts k s).buffer = s.buffer ∧ (slotDeparts k s).trg = s.trg ∧
    (slotDeparts k s).inReset = s.inReset ∧ (slotDeparts k s).pending = s.pending := by
  simp only [slotDeparts]
  (repeat' split) <;> simp

/-- `presentSample` moves nothing but the ports, the stream table, the slots and the management port. -/
@[simp] theorem presentSample_frame (en : EntryId) (k : SlotId) (b : Block) (n : Nat) (s : State) :
    (presentSample en k b n s).tb = s.tb ∧ (presentSample en k b n s).win = s.win ∧
    (presentSample en k b n s).org = s.org ∧ (presentSample en k b n s).xmit = s.xmit ∧
    (presentSample en k b n s).buffer = s.buffer ∧ (presentSample en k b n s).trg = s.trg ∧
    (presentSample en k b n s).inReset = s.inReset ∧ (presentSample en k b n s).pending = s.pending := by
  simp only [presentSample]
  (repeat' split) <;> simp

/-- `sourceInstant` moves nothing but the ports, the stream table, the sample buffer, the slots and the
management port. -/
@[simp] theorem sourceInstant_frame (k : SlotId) (t : Tick) (v : Bool) (d : BitVec 32) (s : State) :
    (sourceInstant k t v d s).tb = s.tb ∧ (sourceInstant k t v d s).win = s.win ∧
    (sourceInstant k t v d s).org = s.org ∧ (sourceInstant k t v d s).xmit = s.xmit ∧
    (sourceInstant k t v d s).trg = s.trg ∧ (sourceInstant k t v d s).inReset = s.inReset ∧
    (sourceInstant k t v d s).pending = s.pending := by
  simp only [sourceInstant]
  (repeat' split) <;> simp

end Sys2Proof.Machine
end

