-- ==== Sys2Proof/Laws/Memory.lean ====
section
/-! SUPPORT. The laws of the sample buffer: reading after writing, and the canonical form that every operation keeps. -/
namespace Sys2Proof.Machine

/-! ### The canonical form -/

theorem Memory.wfFrom_mono {m : List Host.Cell} {lo lo' : Nat} (h : lo ≤ lo') (w : Memory.wfFrom lo' m = true) :
    Memory.wfFrom lo m = true := by
  cases m with
  | nil => rfl
  | cons c rest =>
    obtain ⟨k, b⟩ := c
    simp only [Memory.wfFrom, Bool.and_eq_true, decide_eq_true_eq] at w ⊢
    exact ⟨⟨⟨by omega, w.1.1.2⟩, w.1.2⟩, w.2⟩

/-- An address below the first listed one reads as an unlisted one. -/
theorem Memory.read_below {m : List Host.Cell} {lo a : Nat} (w : Memory.wfFrom lo m = true) (h : a < lo) :
    Memory.read m a = Config.bufferPowerUp := by
  induction m generalizing lo with
  | nil => rfl
  | cons c rest ih =>
    obtain ⟨k, b⟩ := c
    simp only [Memory.wfFrom, Bool.and_eq_true, decide_eq_true_eq] at w
    have hk : k ≠ a := by omega
    simp only [Memory.read, hk, if_false]
    exact ih w.2 (by omega)

theorem Memory.wfFrom_insert {m : List Host.Cell} {lo a : Nat} {b : Byte} (w : Memory.wfFrom lo m = true)
    (hlo : lo ≤ a) (ha : a < Memory.size) : Memory.wfFrom lo (Memory.insert m a b) = true := by
  induction m generalizing lo with
  | nil =>
    simp only [Memory.insert]
    split
    · rfl
    · simp_all [Memory.wfFrom]
  | cons c rest ih =>
    obtain ⟨k, x⟩ := c
    have w' := w
    simp only [Memory.wfFrom, Bool.and_eq_true, decide_eq_true_eq] at w
    simp only [Memory.insert]
    split
    · rename_i hlt
      split
      · exact w'
      · rename_i hb
        simp only [Memory.wfFrom, Bool.and_eq_true, decide_eq_true_eq]
        exact ⟨⟨⟨hlo, ha⟩, hb⟩, ⟨⟨⟨by omega, w.1.1.2⟩, w.1.2⟩, w.2⟩⟩
    · split
      · rename_i _ hak
        subst hak
        split
        · exact Memory.wfFrom_mono (by omega) w.2
        · rename_i hb
          simp only [Memory.wfFrom, Bool.and_eq_true, decide_eq_true_eq]
          exact ⟨⟨⟨hlo, ha⟩, hb⟩, w.2⟩
      · simp only [Memory.wfFrom, Bool.and_eq_true, decide_eq_true_eq]
        exact ⟨w.1, ih w.2 (by omega)⟩

/-- Writing a byte keeps the canonical form. -/
theorem Memory.wf_write {m : List Host.Cell} (w : Memory.wf m = true) (a : Nat) (b : Byte) :
    Memory.wf (Memory.write m a b) = true := by
  unfold Memory.write
  split
  · exact Memory.wfFrom_insert w (Nat.zero_le a) (by assumption)
  · exact w

/-- Writing bytes keeps the canonical form. -/
theorem Memory.wf_writeBytes {m : List Host.Cell} (w : Memory.wf m = true) (a : Nat) (bs : List Byte) :
    Memory.wf (Memory.writeBytes m a bs) = true := by
  induction bs generalizing m a with
  | nil => exact w
  | cons b bs ih => exact ih (Memory.wf_write w a b) (a + 1)

/-- Moving the payloads of a ring keeps the canonical form. -/
theorem Memory.wf_writeContents {m : List Host.Cell} (w : Memory.wf m = true) (base : Nat) (cs : List (List Byte)) :
    Memory.wf (writeContents m base cs) = true := by
  induction cs generalizing m base with
  | nil => exact w
  | cons c cs ih => exact ih (Memory.wf_writeBytes w _ c) (base + 1)

/-- The buffer after reset is in canonical form. -/
theorem Memory.wf_nil : Memory.wf [] = true := rfl

/-! ### Reading after writing -/

theorem Memory.read_insert_same {m : List Host.Cell} {lo a : Nat} {b : Byte} (w : Memory.wfFrom lo m = true) :
    Memory.read (Memory.insert m a b) a = b := by
  induction m generalizing lo with
  | nil =>
    simp only [Memory.insert]
    split
    · rename_i h; simp [Memory.read, h]
    · simp [Memory.read]
  | cons c rest ih =>
    obtain ⟨k, x⟩ := c
    have w' := w
    simp only [Memory.wfFrom, Bool.and_eq_true, decide_eq_true_eq] at w
    simp only [Memory.insert]
    split
    · rename_i hlt
      split
      · rename_i hb
        rw [hb]
        refine Memory.read_below (lo := k) (m := (k, x) :: rest) ?_ hlt
        simp only [Memory.wfFrom, Bool.and_eq_true, decide_eq_true_eq]
        exact ⟨⟨⟨Nat.le_refl k, w.1.1.2⟩, w.1.2⟩, w.2⟩
      · simp [Memory.read]
    · split
      · rename_i _ hak
        subst hak
        split
        · rename_i hb
          rw [hb]
          exact Memory.read_below w.2 (by omega)
        · simp [Memory.read]
      · rename_i hlt hne
        have hk : k ≠ a := fun e => hne e.symm
        simp only [Memory.read, hk, if_false]
        exact ih w.2

theorem Memory.read_insert_ne {m : List Host.Cell} {a a' : Nat} {b : Byte} (h : a' ≠ a) :
    Memory.read (Memory.insert m a b) a' = Memory.read m a' := by
  have h' : a ≠ a' := fun e => h e.symm
  induction m with
  | nil =>
    simp only [Memory.insert]
    split
    · rfl
    · simp [Memory.read, h']
  | cons c rest ih =>
    obtain ⟨k, x⟩ := c
    simp only [Memory.insert]
    split
    · split
      · rfl
      · simp [Memory.read, h']
    · split
      · rename_i _ hak
        subst hak
        split <;> simp [Memory.read, h']
      · simp only [Memory.read, ih]

/-- A byte written inside the buffer reads as written. -/
theorem Memory.read_write_same {m : List Host.Cell} (w : Memory.wf m = true) {a : Nat} (ha : a < Memory.size)
    (b : Byte) : Memory.read (Memory.write m a b) a = b := by
  simp only [Memory.write, ha, if_true]
  exact Memory.read_insert_same w

/-- A write leaves every other address as it was. -/
theorem Memory.read_write_ne {m : List Host.Cell} {a a' : Nat} (h : a' ≠ a) (b : Byte) :
    Memory.read (Memory.write m a b) a' = Memory.read m a' := by
  unfold Memory.write
  split
  · exact Memory.read_insert_ne h
  · rfl

/-- Writing bytes leaves every address outside them as it was. -/
theorem Memory.read_writeBytes_outside {m : List Host.Cell} {a a' : Nat} {bs : List Byte}
    (h : a' < a ∨ a + bs.length ≤ a') : Memory.read (Memory.writeBytes m a bs) a' = Memory.read m a' := by
  induction bs generalizing m a with
  | nil => rfl
  | cons b bs ih =>
    simp only [List.length_cons] at h
    simp only [Memory.writeBytes]
    rw [ih (by omega), Memory.read_write_ne (by omega)]

/-- Bytes written inside the buffer read as written. -/
theorem Memory.read_writeBytes_inside {m : List Host.Cell} (w : Memory.wf m = true) {a i : Nat} {bs : List Byte}
    (hs : a + bs.length ≤ Memory.size) (hi : i < bs.length) :
    Memory.read (Memory.writeBytes m a bs) (a + i) = bs[i] := by
  induction bs generalizing m a i with
  | nil => simp at hi
  | cons b bs ih =>
    simp only [List.length_cons] at hs hi
    simp only [Memory.writeBytes]
    cases i with
    | zero =>
      rw [Memory.read_writeBytes_outside (by omega)]
      simpa using Memory.read_write_same w (by omega) b
    | succ i =>
      have e : a + (i + 1) = a + 1 + i := by omega
      rw [e, ih (Memory.wf_write w a b) (by omega) (by omega)]
      simp

/-- Reading back the bytes just written gives them. -/
theorem Memory.readBytes_writeBytes {m : List Host.Cell} (w : Memory.wf m = true) {a : Nat} {bs : List Byte}
    (hs : a + bs.length ≤ Memory.size) : Memory.readBytes (Memory.writeBytes m a bs) a bs.length = bs := by
  apply List.ext_getElem
  · simp [Memory.readBytes]
  · intro i h1 h2
    simp only [Memory.readBytes, List.getElem_map, List.getElem_range]
    exact Memory.read_writeBytes_inside w hs h2

/-- Two buffers that read alike over a run of addresses give the same bytes there. -/
theorem Memory.readBytes_congr {m m' : List Host.Cell} {a n : Nat}
    (h : ∀ i, i < n → Memory.read m (a + i) = Memory.read m' (a + i)) :
    Memory.readBytes m a n = Memory.readBytes m' a n := by
  simp only [Memory.readBytes]
  exact List.map_congr_left fun i hi => h i (List.mem_range.1 hi)

@[simp] theorem Memory.readBytes_length (m : List Host.Cell) (a n : Nat) : (Memory.readBytes m a n).length = n := by
  simp [Memory.readBytes]

end Sys2Proof.Machine
end

