-- ==== Sys2Proof/WellFormed.lean ====
section
/-! DEFINITION. Which commands fit the layouts that carry them: each request field fits its bytes (R209), each cell
field lies in its range (R207), and a frame can be written. What a request's owner refuses is not judged here. -/
namespace Sys2Proof

/-- A number fits in `n` bytes. -/
def fitsBytes (n v : Nat) : Bool := decide (v < 256 ^ n)

/-- An optional field fits in `n` bytes. -/
def optFits (n : Nat) : Option Nat → Bool
  | none => true
  | some v => fitsBytes n v

/-- A signed number fits in `n` bytes of two's complement. -/
def fitsSigned (n : Nat) (v : Int) : Bool := decide (-(256 ^ n : Int) ≤ 2 * v) && decide (2 * v < (256 ^ n : Int))

def optFitsSigned (n : Nat) : Option Int → Bool
  | none => true
  | some v => fitsSigned n v

/-- Whether a command fits its layout. -/
def wellFormed : Instr → Bool
  | .resetPin _ _ => true
  | .spiUnknownTransaction first _ => first != 0xC3 && first != 0x3C
  | .requestFrameWrite _ => true
  | .replyMadeReady => true
  | .replyRead _ => true
  | .tbCfg r =>
    optFits 1 r.role && optFits 4 r.epoch && optFits 4 r.tstep && optFits 1 r.p && optFits 1 r.i && optFits 2 r.fmax
      && optFits 2 r.smax && optFits 2 r.spacingTol && optFits 1 r.autoRecover && optFits 2 r.holdoverLimit
  | .tbRef m p => fitsBytes 1 m && fitsBytes 1 p
  | .tbRealign => true
  | .tbNow => true
  | .tbStat => true
  | .tbOffset o => fitsSigned 8 o
  | .winCfg r =>
    fitsBytes 1 r.window && optFitsSigned 4 r.lower && optFitsSigned 4 r.upper && optFits 1 r.inUse && optFits 1 r.notice
  | .winHyst h => fitsBytes 2 h
  | .qualCfg r =>
    fitsBytes 1 r.qualifier && optFits 1 r.coupled && optFits 1 r.clearOnExit && optFits 1 r.entryOnly
      && optFits 1 r.dropOnFault && optFits 1 r.originRequired
  | .qualMode q m => fitsBytes 1 q && fitsBytes 1 m
  | .winStat => true
  | .orgCfg r =>
    optFits 7 r.value && optFits 4 r.period && optFits 2 r.tolerance && optFits 1 r.settleLen && optFits 1 r.originRequired
  | .orgArm => true
  | .orgDisarm => true
  | .orgStat => true
  | .portCfg r =>
    fitsBytes 1 r.port && optFits 1 r.debounce && optFits 2 r.signalWait && optFits 2 r.grace && optFits 2 r.drainTimeout
      && optFits 1 r.threshold && optFits 3 r.dmin && optFits 3 r.dmax
  | .portCtlEnable p => fitsBytes 1 p
  | .portCtlDisable p => fitsBytes 1 p
  | .portCtlDrain p => fitsBytes 1 p
  | .portCtlResume p => fitsBytes 1 p
  | .portCtlRetrain p => fitsBytes 1 p
  | .portStat p => fitsBytes 1 p
  | .xmitCfg c r => optFits 1 c && optFits 1 r
  | .xmitStat p => fitsBytes 1 p
  | .strmOpen r =>
    fitsBytes 1 r.entry && fitsBytes 2 r.rackId && fitsBytes 1 r.mode && fitsBytes 1 r.source && fitsBytes 2 r.base
      && fitsBytes 2 r.len && fitsBytes 2 r.payload && fitsBytes 1 r.width && fitsBytes 4 r.interval
      && optFits 1 r.priority && optFits 1 r.gate && optFits 1 r.ageLimit && optFits 1 r.holdLimit
      && optFits 1 r.drainLimit && optFits 3 r.latency && optFits 2 r.initSeq
  | .strmStart e => fitsBytes 1 e
  | .strmStop e => fitsBytes 1 e
  | .strmClose e => fitsBytes 1 e
  | .strmWindow e b l => fitsBytes 1 e && fitsBytes 2 b && fitsBytes 2 l
  | .strmDest r => fitsBytes 1 r.entry
  | .strmStat e => fitsBytes 1 e
  | .slotCfg r => fitsBytes 1 r.slot && optFits 1 r.debounce && optFits 1 r.strobe
  | .slotClk r => fitsBytes 1 r.slot && optFits 4 r.divider && optFits 2 r.phase
  | .slotStat k _ => fitsBytes 1 k
  | .trgSched t _ h => fitsBytes 7 t && optFits 1 h
  | .trgCancel i h => fitsBytes 2 i && optFits 1 h
  | .trgCfg w h => optFits 2 w && optFits 1 h
  | .trgList p f => fitsBytes 1 p && fitsBytes 1 f
  | .hubId => true
  | .hubFrame f => fitsBytes 1 f
  | .hubResetAll _ _ => true
  | .hubResetTraffic => true
  | .ntcMask _ => true
  | .ntcGet c => optFits 1 c
  | .epochBoundary => true
  | .sampleInstant _ _ _ => true
  | .triggerFire _ => true
  | .startRise => true
  | .startFall => true
  | .refPulseEdge => true
  | .portPresentRise _ => true
  | .portPresentFall _ => true
  | .portSignalRise _ => true
  | .portSignalFall _ => true
  | .portDebounceExpiry _ => true
  | .signalWaitExpiry _ => true
  | .graceExpiry _ => true
  | .drainTimeout _ => true
  | .drainComplete _ => true
  | .silenceTimeout => true
  | .slotPresentRise _ => true
  | .slotDebounceExpiry _ => true
  | .slotPresentFall _ => true
  | .cellBadCrc _ => true
  | .cellUnknownKind _ => true
  | .markerReceived _ c _ => Machine.cellInRange (.marker c)
  | .probeReceived _ c _ => Machine.cellInRange (.probe c)
  | .echoReceived _ c _ => Machine.cellInRange (.echo c)
  | .creditReceived _ c => Machine.cellInRange (.credit c)
  | .queryReceived _ r => Machine.cellInRange (.query r)
  | .sampleReceived _ c => Machine.cellInRange (.sample c)
  | .triggerReceived _ c => Machine.cellInRange (.trigger c)
  | .cancelReceived _ c => Machine.cellInRange (.cancel c)
  | .quiesceReceived _ => true
  | .resumeReceived _ => true
  | .cellDeparture _ => true
  | .cellCompletion _ => true
  | .oscillatorTick => true

end Sys2Proof
end

