-- ==== Sys2Proof/Tests/Slice0.lean ====
section
/-! SUPPORT. The model's own tests: an ill-formed command for each check of `WellFormed`, the worked examples of the
spec, and for each statement that has hypotheses a state and operands that meet them, `witness_<Statement>`. -/
namespace Sys2Proof.Machine

-- One theorem after another: many at once each hold a thread, and the package compiles under a memory limit.
set_option Elab.async false

open Sys2Proof.Safety

/-! ### Small states -/

/-- The state after a command. -/
def after (c : Instr) (s : State) : State :=
  match exec c s with
  | .next t => t
  | .fault _ => s
  | .refused _ => s

/-- A member with frame number 12. -/
def rig : State := State.reset.updMgmt fun m => { m with frame := 12 }

/-- The rig with P1 in a link state, its cable and signal there, peer 7, D 4,650. -/
def linkAt (l : LinkState) : State :=
  rig.updPort 1 fun q => { q with link := l, present := true, signal := true, peer := 7, delay := 4650 }

/-- A member with P1 as its reference, in a servo state. -/
def servoAt (v : ServoState) : State :=
  (linkAt .active).updTb fun t => { t with servo := v, ref := some 1, hadRef := true, silence := some 375000 }

/-- The rig as root. -/
def rootRig : State := rig.updTb fun t => { t with role := .root, servo := .master }

/-- The rig as root with the origin unit in a state. -/
def originAt (v : OriginState) : State := rootRig.updOrg fun o => { o with state := v }

/-- Entry 0 in a state with a source: stream 301, P1 and S3 its destinations, blocks of 8 samples of 2 bytes. -/
def entryAt (m : StreamMode) (src : Source) (v : StreamState) : State :=
  ((linkAt .active).updSlot 0 fun q => { q with presence := .present, present := true, divider := 1000 }).updEntry 0
    fun e => { e with
      state := v, opened := true, rackId := 301, mode := m, source := src, destPorts := 2, payload := 16, width := 2
      interval := 1000, ageLimit := 2, holdLimit := 4, drainLimit := 16, base := 64, len := 2, writePos := 64
      discOwed := true }

/-- A closed block in a block slot, pending for P1. -/
def block (sq : Seq) (k : Nat) : Block :=
  { seq := sq, stamp := 0, trusted := true, disc := false, short := false, mark := none, extraMarks := 0, len := 16,
    isOpen := false, routePorts := 2, routeSlots := 0, pendPorts := 2, pendSlots := 0, slot := k, age := 0 }

/-- A MARKER of frame 7, hop 1, for E in force. -/
def markerOf (m : SubTick) : MarkerCell :=
  { sender := 7, hop := 1, grade := true, aligned := false, upstream := 3, epoch := 125000, stamp := m }

/-- A queued trigger on line 2. -/
def trig (i : TrigId) (t : Tick) : TrigEntry :=
  { id := i, fireTime := t, lines := 4, hop := 8, arrival := none, pendPorts := 0, owedPorts := 0 }

/-- A finished trigger. -/
def done (i : TrigId) (v : HistoryKind) : HistoryRecord := { id := i, kind := v, forward := none }

/-- A notice of a kind with a subject. -/
def note (k : NoticeKind) (n : BitVec 16) (t : Tick) : Notice :=
  { kind := k, subject := n, detail := 0, stamp := t, extra := 0 }

/-- The rig with RESET asserted. -/
def heldRig : State := after (.resetPin true ⟨true, true⟩) (linkAt .active)

/-- The hypothesis `s.inReset = false`: RESET is not asserted after reset, and no update of a block asserts it, so every state
below but `heldRig`, built by such updates and by `after`, meets it together with what its own witness shows. -/
theorem witness_outOfReset (s : State) (h : s.inReset = false) :
    (∀ f, (s.updTb f).inReset = false) ∧ (∀ f, (s.updWin f).inReset = false) ∧
      (∀ f, (s.updOrg f).inReset = false) ∧ (∀ f, (s.updTrg f).inReset = false) ∧
      (∀ f, (s.updMgmt f).inReset = false) ∧ (∀ p f, (s.updPort p f).inReset = false) ∧
      (∀ en f, (s.updEntry en f).inReset = false) ∧ (∀ k f, (s.updSlot k f).inReset = false) ∧
      State.reset.inReset = false ∧ rig.inReset = false ∧ rootRig.inReset = false ∧
      (∀ l, (linkAt l).inReset = false) ∧ (∀ v, (servoAt v).inReset = false) ∧ (∀ v, (originAt v).inReset = false) ∧
      (∀ m src v, (entryAt m src v).inReset = false) ∧ heldRig.inReset = true := by
  simp only [State.updTb, State.updWin, State.updOrg, State.updTrg, State.updMgmt, State.updPort, State.updEntry,
    State.updSlot, h, implies_true, true_and]
  exact ⟨rfl, rfl, rfl, fun _ => rfl, fun _ => rfl, fun _ => rfl, fun _ _ _ => rfl, rfl⟩

/-- The rig stores a notice of every kind. -/
theorem witness_canStore (k : NoticeKind) : canStore k rig := ⟨by cases k <;> decide, by decide⟩

/-! ### WellFormed refuses what the layouts cannot carry (R207, R209) -/

theorem test_illFormed_spi : wellFormed (.spiUnknownTransaction 0xC3 0) = false := by decide
theorem test_illFormed_timebase :
    [Instr.tbCfg { epoch := some (2 ^ 32) }, .tbCfg { role := some 256 }, .tbRef 256 0, .tbRef 0 256,
      .tbOffset (2 ^ 63)].all (fun c => !wellFormed c) = true := by decide
theorem test_illFormed_windows :
    [Instr.winCfg { window := 256 }, .winCfg { window := 0, lower := some (2 ^ 31) }, .winHyst 65536,
      .qualCfg { qualifier := 0, coupled := some 256 }, .qualMode 0 256].all (fun c => !wellFormed c) = true := by decide
theorem test_illFormed_origin :
    [Instr.orgCfg { value := some (2 ^ 56) }, .orgCfg { tolerance := some 65536 }].all (fun c => !wellFormed c) = true := by
  decide
theorem test_illFormed_ports :
    [Instr.portCfg { port := 0, dmax := some (2 ^ 24) }, .portCfg { port := 256 }, .portCtlEnable 256,
      .portCtlDisable 256, .portCtlDrain 256, .portCtlResume 256, .portCtlRetrain 256, .portStat 256,
      .xmitCfg (some 256) none, .xmitCfg none (some 256), .xmitStat 256].all (fun c => !wellFormed c) = true := by decide
theorem test_illFormed_streams :
    [Instr.strmOpen ⟨0, 65536, 0, 0, 0, 0, 0, 2, 16, 2, 2, none, none, none, none, none, none, none⟩, .strmStart 256,
      .strmStop 256, .strmClose 256, .strmWindow 0 65536 2, .strmDest ⟨256, 0, 0, 0, 0⟩,
      .strmStat 256].all (fun c => !wellFormed c) = true := by decide
theorem test_illFormed_slots :
    [Instr.slotCfg { slot := 256 }, .slotClk { slot := 0, phase := some 65536 }, .slotStat 256 true].all
      (fun c => !wellFormed c) = true := by decide
theorem test_illFormed_triggers :
    [Instr.trgSched (2 ^ 56) 0 none, .trgCancel 65536 none, .trgCfg (some 65536) none, .trgList 256 0].all
      (fun c => !wellFormed c) = true := by decide
theorem test_illFormed_hub :
    [Instr.hubFrame 256, .ntcGet (some 256)].all (fun c => !wellFormed c) = true := by decide
theorem test_illFormed_cells :
    [Instr.markerReceived ⟨0, true⟩ { markerOf 0 with hop := 32 } 0, .probeReceived ⟨0, true⟩ ⟨64, 1, 1, 0⟩ 0,
      .echoReceived ⟨0, true⟩ ⟨1, 1, 1, 9, 0, 0⟩ 0, .creditReceived ⟨0, true⟩ ⟨1024, 0⟩, .queryReceived ⟨0, true⟩ 0,
      .sampleReceived ⟨0, true⟩ ⟨1, 0, 0, true, true, true, none, 0, List.replicate 513 0⟩, .triggerReceived ⟨0, true⟩ ⟨0, 0, 0, 32⟩,
      .cancelReceived ⟨0, true⟩ ⟨0, 32⟩].all (fun c => !wellFormed c) = true := by decide +kernel
theorem test_wellFormed_marker : wellFormed (.markerReceived ⟨0, true⟩ (markerOf 0) 0) = true := by decide

/-! ### Worked examples of the spec -/

/-- 00_scope.md, "Signed rounding by shift". -/
theorem test_roundShift : roundShift 650 2 = 163 ∧ roundShift (-650) 2 = -163 := by decide

/-- 01_the_timebase.md, "Worked example: servo arithmetic": e = 650 in TRACK with F = 1,200. -/
theorem test_servo_650 :
    let t := (after (.markerReceived ⟨1, true⟩ (markerOf 1280000000) 1280004000)
      ((servoAt .track).updTb fun t => { t with freq := 1200 })).tb
    t.slew = 163 ∧ t.freq = 1210 ∧ t.nextGain = 32001373 := by decide +kernel

/-- The same example: e = 60,000 with F = 1,210. -/
theorem test_servo_60000 :
    let t := (after (.markerReceived ⟨1, true⟩ (markerOf (1000000 + 60000 - 4650)) 1000000)
      ((servoAt .track).updTb fun t => { t with freq := 1210 })).tb
    t.slew = 4096 ∧ t.freq = 2148 ∧ t.nextGain = 32006244 := by decide +kernel

/-- The same example: two excursions in succession; the second steps by its own e. -/
theorem test_servo_excursions :
    let s := after (.markerReceived ⟨1, true⟩ (markerOf (70000 - 4650)) 0) (servoAt .track)
    let t := after (.markerReceived ⟨1, true⟩ (markerOf (32000000 + 69000 - 4650)) 32000000) s
    s.tb.excursions = 1 ∧ s.tb.servo = .track ∧ t.tb.servo = .acquire ∧ t.tb.reading = s.tb.reading + 69000 := by
  decide +kernel

/-- 02_phase_windows_and_qualifiers.md, "Worked example: two overlapping windows and one band", markers 1, 4, 6. -/
def bandRig : State :=
  (servoAt .track).updWin fun u =>
    { u with
      wins := (u.wins.set 0 { Window.reset with inForce := { lower := -2000, upper := 2000, inUse := true, notice := .none } }).set
        1 { Window.reset with inForce := { lower := 1500, upper := 6000, inUse := true, notice := .none } }
      stamp := { u.stamp with coupled := 3 }, prevValid := true, prevE := 7000 }

theorem test_bands_example :
    let run := fun s e => evaluate e .track false s
    let s1 := run bandRig 5900
    let s4 := run (run (run s1 6150) 6200) 6300
    let s6 := run (run s4 5950) 1000
    (s1.win.stamp.on, s1.win.stamp.band) = (true, some 6000) ∧
      (s4.win.stamp.on, s4.win.stamp.band) = (false, some 6000) ∧
      (s6.win.stamp.on, s6.win.stamp.band) = (true, some (-2000)) := by decide +kernel

/-- 03_rack_origin.md, "Worked example: an approach on the root": pulse 1, then START falls, then pulse 4. -/
theorem test_origin_example :
    let o := (originAt .syncing).updOrg fun o => { o with value := 1000000000 }
    let s := after .refPulseEdge (o.updTb fun t => { t with reading := atTick 512337100 + 77 })
    let t := after .refPulseEdge ((o.updOrg fun o => { o with state := .aligned, aligned := true }).updTb
      fun t => { t with reading := atTick 1250000021 })
    s.tb.reading = atTick 1000000000 ∧ (after .startFall s).org.state = .settling ∧
      (after .startFall s).org.settleCtr = 2 ∧ t.org.deviation = some 21 ∧ t.org.state = .idle := by decide +kernel

/-- 04_link_ports.md, "Worked example: training a new cable": the RT of the first probe, and D. -/
theorem test_training_example :
    roundTrip 2560000000 2560003100 2560028700 2560034910 = 9310 ∧
      computedDelay (Training.valid { Training.reset with rts :=
        #v[some 9310, some 9298, some 9305, some 9320, some 9302, some 9296, some 9330, some 9301] }) = 4650 := by
  decide +kernel

/-- 05_cell_transmission.md, "Worked example: one port, four streams": the first six grants. -/
def arbiterRig : State :=
  let put := fun (en : EntryId) (pr : Bool) (s : State) => s.updEntry en fun e =>
    { e with state := .running, priority := pr, ring := [block 0 0] }
  put 2 true (put 9 true (put 5 false (put 12 false (linkAt .active))))

def grants : Nat → State → List (Nat × Nat × Nat)
  | 0, _ => []
  | n + 1, s =>
    match arbiterGrant s 1 with
    | none => []
    | some (en, a, b) => (en.val, a, b) :: grants n (s.updPort 1 fun q => { q with level1 := a, level2 := b })

theorem test_arbiter_example :
    grants 6 arbiterRig = [(2, 2, 31), (9, 9, 31), (5, 32, 5), (2, 2, 5), (9, 9, 5), (12, 32, 12)] := by decide +kernel

/-- 05_cell_transmission.md, "Worked example: credit across one hop": expected 40 with 3 blocks held of 8 gives 44. -/
theorem test_credit_example :
    computedLimit { Entry.reset with len := 8, nextExp := 40, ring := [block 37 0, block 38 1, block 39 2] } = 44 := by
  decide +kernel

/-- 06_streams_and_the_sample_buffer.md, "Worked example: shrinking and moving a window", the last rows: blocks 625 to
627 with 628 to 631 placed, the last in slot 71 is a wrap, and 3 blocks held fit the staged window of 4. -/
theorem test_window_example :
    let s := (entryAt .live (.port 0) .running).updEntry 0 fun e =>
      { e with base := 64, len := 8, stagedWin := some (200, 4), writePos := 71, ring := [block 629 69, block 630 70] }
    let t := placeBlock 0 (block 631 0) [1, 2] s
    ((t.entry 0).base, (t.entry 0).len, (t.entry 0).writePos) = (200, 4, 203) ∧
      (t.entry 0).ring.map (·.slot) = [200, 201, 202] ∧ Memory.read t.buffer (202 * 512 + 1) = 2 := by decide +kernel

/-- 07_slots.md, "Worked example: E and divider checks": S4 with dividers 4,096 and 2,500. -/
theorem test_divider_example :
    (after (.slotClk { slot := 4, divider := some 4096, phase := some 0 }) rig).mgmt.answer = some ⟨.divider, []⟩ ∧
      (after (.slotClk { slot := 4, divider := some 2500, phase := some 100 }) rig).mgmt.answer = some ⟨.staged, []⟩ := by
  decide +kernel

/-- 07_slots.md, "Worked example: playout with a short block, an underrun and a late block": the presentation instants
of blocks 40 and 43, and one late at 10,114,000. -/
theorem test_playout_example :
    presentationInstant (10000000 + 50000) 1000 0 = 10050000 ∧ presentationInstant (10040000 + 50000) 1000 0 = 10090000 ∧
      inFuture 10106000 10111000 = false := by decide

/-- 08_triggers.md, "Worked example: one trigger over three frames": the id, and the cells offered to two ports. -/
theorem test_trigger_example :
    let s := ((linkAt .active).updPort 0 fun q => { q with link := .active, present := true, signal := true }).updMgmt
      fun m => { m with frame := 5 }
    let t := after (.trgSched 80000000 4 none)
      ((s.updTrg fun u => { u with nextCount := 17 }).updTb fun t => { t with reading := atTick 79000000 })
    t.trg.queue.map (fun x => (x.id, x.hop, x.pendPorts)) = [(5137, 8, 3)] ∧
      (t.port 0).ctrlQ = [.trigger ⟨5137, 80000000, 4, 7⟩] ∧ (t.port 1).ctrlQ = [.trigger ⟨5137, 80000000, 4, 7⟩] := by
  decide +kernel

/-- 09_management_port.md, "Worked example: one reply slot": `tb.now`, then two writes that discard and overrun. -/
theorem test_reply_slot_example :
    let s1 := after .replyMadeReady (after .tbNow (after (.requestFrameWrite [0x13, 5, 0]) rig))
    let s2 := after (.requestFrameWrite [0x42, 6, 1, 1]) s1
    let s3 := after (.requestFrameWrite [0x09, 7, 1, 0]) s2
    s1.mgmt.decoded = 1 ∧ s2.mgmt.discardedReplies = 1 ∧ s3.mgmt.overruns = 1 ∧
      s3.mgmt.inDecode = some { kind := 0x42, tag := 6, body := [1], discarded := true, overrun := true } ∧
      (after (.replyRead 4) rig).mgmt.sdo = [0, 0, 2, 0] := by decide +kernel

/-- 09_management_port.md, "Worked example: fetching in class order": `ntc.get` with count 4. -/
def fetchRig : State :=
  rig.updMgmt fun m => { m with notices :=
    [note .triggerFired 5137 80000000, note .portLost 1 80010200, note .refChanged 0xFFFF 80010200,
     note .servoState 3 80010200, note .qualChange 0 80010200, note .sinkUnderrun 5 80011000,
     note .portActive 3 80125000] }

theorem test_fetch_example :
    (after (.ntcGet (some 4)) fetchRig).mgmt.notices.map (·.kind) = [.triggerFired, .qualChange, .sinkUnderrun] ∧
      ((after (.ntcGet (some 4)) fetchRig).mgmt.answer.map fun a => (a.body.take 2, a.body.getD 5 0, a.body.getD 27 0)) =
        some ([4, 3], 2, 1) := by decide +kernel

/-- 10_formats.md, "Worked example: one notice record". -/
theorem test_notice_example :
    noticeBytes { kind := .step, subject := 0, detail := -611393, stamp := 5000000, extra := 0 } =
      [0x0E, 0, 0, 0xFF, 0xFF, 0xFF, 0xFF, 0xFF, 0xF6, 0xAB, 0xBF, 0, 0, 0, 0, 0x4C, 0x4B, 0x40, 0, 0, 0, 0] := by
  decide +kernel

/-! ### Witnesses: the machine and its invariants -/

theorem witness_StepRunsFrontCommand : State.reset.pending = [] ∧ step State.reset = .next State.reset := ⟨rfl, rfl⟩

/-- A command that answers a next state answers the one that `after` names. -/
theorem exec_after {c : Instr} {s : State} (h : (match exec c s with | .next _ => true | _ => false) = true) :
    exec c s = .next (after c s) := by
  unfold after
  cases e : exec c s <;> simp_all

/-- The state with one command waiting. -/
def waitingFor (c : Instr) (s : State) : State := { s with pending := [c] }

/-- The step of that state. -/
theorem step_after {c : Instr} {s : State}
    (h : (match exec c { s with pending := [] } with | .next _ => true | _ => false) = true) :
    step (waitingFor c s) = .next (after c { s with pending := [] }) := exec_after h

theorem witness_BufferKept :
    exec .tbNow rig = .next (after .tbNow rig) ∧ (∀ k v d, Instr.tbNow ≠ .sampleInstant k v d) ∧
      (∀ p x, Instr.tbNow ≠ .sampleReceived p x) ∧ bufferCanonical (waitingFor .tbNow rig) ∧
      step (waitingFor .tbNow rig) = .next (after .tbNow { rig with pending := [] }) := by
  exact ⟨exec_after rfl, nofun, nofun, rfl, step_after rfl⟩

/-- A full notice list, and queues at their depths. -/
def fullRig : State :=
  ((linkAt .active).updMgmt fun m => { m with notices := List.replicate 32 (note .portLost 1 0) }).updPort 1 fun q =>
    { q with timingQ := [.marker, .probe 1 1 1, .probe 1 1 2, .probe 1 1 3], ctrlQ := List.replicate 16 .resume }

theorem witness_CapacitiesHold :
    noticesBounded (waitingFor .epochBoundary fullRig) ∧ queuesBounded (waitingFor .epochBoundary fullRig) ∧
      step (waitingFor .epochBoundary fullRig) = .next (after .epochBoundary { fullRig with pending := [] }) := by
  refine ⟨by unfold noticesBounded; decide +kernel, by unfold queuesBounded; decide +kernel, step_after rfl⟩

/-- F and S at their limits. -/
def limitRig : State := (servoAt .track).updTb fun t => { t with freq := 8192, slew := -4096 }

theorem witness_ServoStaysWithinLimits :
    servoWithinLimits (waitingFor (.tbCfg { fmax := some 0 }) limitRig) ∧
      step (waitingFor (.tbCfg { fmax := some 0 }) limitRig) =
        .next (after (.tbCfg { fmax := some 0 }) { limitRig with pending := [] }) := by
  refine ⟨by unfold servoWithinLimits; decide +kernel, step_after rfl⟩

/-- A slot clock in force and a staged E that it divides. -/
def clockRig : State :=
  (rig.updSlot 3 fun q => { q with divider := 1000, stagedClk := some (2000, 1) }).updTb fun t =>
    { t with epochStaged := some 120000 }

theorem witness_DividersAlwaysDivide :
    dividersDivide (waitingFor .epochBoundary clockRig) ∧
      step (waitingFor .epochBoundary clockRig) = .next (after .epochBoundary { clockRig with pending := [] }) := by
  refine ⟨⟨by decide +kernel, ?_⟩, step_after rfl⟩
  intro e h
  obtain rfl : 120000 = e := Option.some.inj h
  decide +kernel

/-- A full ring of a LIVE receiving entry that has taken three blocks and retired one, and one of a LOSSLESS origin whose hold
reaches its limit at the next boundary. -/
def ringRig : State :=
  let s := (entryAt .live (.port 1) .running).updEntry 0 fun e =>
    { e with destPorts := 4, ring := [block 1 64, block 2 65], counters := { e.counters with created := 3, retired := 1 } }
  s.updEntry 1 fun _ =>
    { s.entry 0 with
      mode := .lossless, source := .slot 0, rackId := 302, base := 66, ring := [block 1 66, block 2 67], hold := true
      holdCount := 3, counters := { StreamCounters.zero with created := 2 } }

theorem witness_BlocksStayConserved :
    blocksConserved (waitingFor .epochBoundary ringRig) ∧
      step (waitingFor .epochBoundary ringRig) = .next (after .epochBoundary { ringRig with pending := [] }) ∧
      ((after .epochBoundary ringRig).entry 1).state = .stalled := by
  refine ⟨?_, step_after rfl, by decide +kernel⟩
  have h : ∀ en : EntryId, ((waitingFor .epochBoundary ringRig).entry en).stagedWin = none := by decide +kernel
  intro en
  refine ⟨?_, ?_, ?_, ?_, ?_⟩
  · revert en; decide +kernel
  · revert en; decide +kernel
  · intro w hw
    rw [h en] at hw
    cases hw
  · revert en; decide +kernel
  · revert en; decide +kernel

/-- A full trigger queue and a full history. -/
def trigRig : State :=
  (linkAt .active).updTrg fun u =>
    { u with
      queue := (List.range 16).map fun i => trig (BitVec.ofNat 16 i) (BitVec.ofNat 56 (1000 + i))
      history := (List.range 16).map fun i => done (BitVec.ofNat 16 (16 + i)) (if i = 0 then .tombstone else .fired) }

theorem witness_TriggerIdsStayDistinct :
    triggerIdsDistinct (waitingFor (.trgCancel 0 none) trigRig) ∧
      step (waitingFor (.trgCancel 0 none) trigRig) = .next (after (.trgCancel 0 none) { trigRig with pending := [] }) := by
  refine ⟨by unfold triggerIdsDistinct; decide +kernel, step_after rfl⟩

/-! ### Witnesses: the timebase -/

theorem witness_EpochGainsExactlyG : State.reset.tb.remainder < State.reset.tb.epoch := by decide

/-- The reading just below a boundary, at the top of the range, and far from both: a boundary is due in the first
two. -/
theorem witness_BoundaryPassedAndGain :
    let at' := fun r : SubTick => rig.updTb fun t => { t with reading := r }
    let passes := fun r : SubTick =>
      decide ((wholeTicks r).toNat ≤ (wholeTicks (after .oscillatorTick (at' r)).tb.reading).toNat)
    let due := fun r : SubTick => (after .oscillatorTick (at' r)).tb.dueBoundary
    0 < rig.tb.epoch ∧
      (passes (atTick 124999), due (atTick 124999)) = (true, true) ∧
      (passes (atTick 125000), due (atTick 125000)) = (true, false) ∧
      (passes (atTick (-1)), due (atTick (-1))) = (false, true) ∧ rig.tb.role = .member ∧ rootRig.tb.role = .root := by
  decide +kernel

/-- The grid of S0 (divider 1,000, phase 250): passed at 250 and at the top of the range over the wrap, and not at 251. -/
theorem witness_OscillatorTickAdvances :
    let at' := fun (r : SubTick) (phi : Nat) => (rig.updTb fun t => { t with reading := r }).updSlot 0 fun q =>
      { q with divider := 1000, phase := phi }
    let due := fun (r : SubTick) (phi : Nat) => (after .oscillatorTick (at' r phi)).tb.dueSample
    [due (atTick 249) 250, due (atTick 250) 250, due (atTick (-1)) 0, due (atTick (-1)) 999] = [1, 0, 1, 0] ∧
      gridPassed 249 250 1000 250 = some 250 ∧ gridPassed (-2) 1 1000 0 = some 0 ∧ gridPassed 5 9 0 0 = none ∧
      (250 : Tick).toNat % 1000 = 250 ∧ (250 - 249 : Tick).toNat = 1 ∧ (0 - (-2) : Tick).toNat ≤ (1 - (-2) : Tick).toNat := by
  decide +kernel

/-- A tie goes away from zero. -/
theorem witness_RoundShiftIsNearest :
    1 ≤ 1 ∧ 2 * (-3 - roundShift (-3) 1 * 2 ^ 1).natAbs = 2 ^ 1 ∧ roundShift (-3) 1 = -2 := by decide

theorem witness_TbCfgSetsTimebase :
    servoWithinLimits clockRig ∧ (∀ e ∈ [4096, 16777215, 120000], 4096 ≤ e ∧ e ≤ 16777215 ∧ e ≠ clockRig.tb.epoch) ∧
      (let next := fun k : SlotId => ((clockRig.slot k).stagedClk.map (·.1)).getD (clockRig.slot k).divider
       (∀ k, next k = 0 ∨ 120000 % next k = 0) ∧ (∃ k, next k ≠ 0 ∧ 4096 % next k ≠ 0) ∧
         ∃ k, next k ≠ 0 ∧ 16777215 % next k ≠ 0) ∧
      (after (.tbCfg { epoch := some 120000 }) clockRig).mgmt.answer = some ⟨.staged, []⟩ ∧
      (after (.tbCfg { fmax := some 65535, smax := some 1 }) limitRig).tb.slew = -1 := by
  refine ⟨by unfold servoWithinLimits; decide +kernel, by decide +kernel, by decide +kernel, by decide +kernel,
    by decide +kernel⟩

theorem witness_RoleAndRealign :
    (servoAt .track).tb.role = .member ∧ (servoAt .track).tb.ref.isSome = true ∧ rig.tb.ref = none ∧
      rootRig.tb.role = .root ∧ rootRig.tb.servo ≠ .free ∧ rootRig.win.stamp.mode = .auto ∧
      (after (.tbCfg { role := some 0 }) (servoAt .track)).tb.servo = .master ∧
      (after (.tbCfg { role := some 1 }) rootRig).tb.servo = .free ∧
      (after .tbRealign (servoAt .holdover)).tb.servo = .acquire := by decide +kernel

theorem witness_SettingsAreStored :
    (after (.tbRef 1 4) rig).mgmt.answer = some ⟨.badValue, []⟩ ∧ (after (.winHyst 65535) rig).win.hyst = 65535 ∧
      (after (.winHyst 65536) rig).mgmt.answer = some ⟨.badValue, []⟩ ∧
      (after (.portCfg { port := 3, debounce := some 0, dmin := some 1048575, dmax := some 1048575 }) rig).port 3 =
        { rig.port 3 with cfg := { (rig.port 3).cfg with debounce := 1, dmin := 1048575, dmax := 1048575 } } ∧
      (after (.portCfg { port := 3, dmin := some 1, dmax := some 0 }) rig).mgmt.answer = some ⟨.badValue, []⟩ ∧
      (after (.tbRef 2 0) rig).mgmt.answer = some ⟨.badValue, []⟩ ∧
      (after (.xmitCfg (some 255) none) rig).xmit.creditTimeout = 255 ∧
      (after (.xmitCfg none (some 15)) rig).xmit.retryLimit = 15 ∧
      (after (.xmitCfg (some 256) none) rig).mgmt.answer = some ⟨.badValue, []⟩ := by decide +kernel

/-- Each setting of `port.cfg` at the ends of its range and one outside it; Dmin against the Dmax in force. -/
theorem witness_SettingsAreStored_ranges :
    let r : PortCfgReq := { port := 3 }
    let status := fun r : PortCfgReq => (after (.portCfg r) rig).mgmt.answer.map (·.status)
    [{ r with signalWait := some 10, grace := some 0, drainTimeout := some 1, threshold := some 1 },
        { r with signalWait := some 5000, grace := some 1000, drainTimeout := some 65535, threshold := some 255 },
        { r with debounce := some 255, dmin := some 262144 }].map status = List.replicate 3 (some .ok) ∧
      [{ r with signalWait := some 9 }, { r with signalWait := some 5001 }, { r with grace := some 1001 },
        { r with drainTimeout := some 0 }, { r with drainTimeout := some 65536 }, { r with threshold := some 0 },
        { r with threshold := some 256 }, { r with debounce := some 256 }, { r with dmax := some 1048576 },
        { r with dmin := some 262145 }, { r with port := 4 }].map status = List.replicate 11 (some .badValue) ∧
      (let q := (after (.portCfg { r with signalWait := some 10, grace := some 0, drainTimeout := some 1, threshold := some 1 })
        rig).port 3
       (q.cfg.signalWait, q.cfg.grace, q.cfg.drainTimeout, q.cfg.threshold, q.cfg.debounce) = (10, 0, 1, 1, 50)) := by
  decide +kernel

/-- What a marker on P1 needs to reach the servo. -/
def reaches (v : ServoState) (c : MarkerCell) (s : State) : Prop :=
  s.tb.role = .member ∧ s.tb.servo = v ∧ s.tb.ref = some 1 ∧ (s.port 1).link = .active ∧ c.epoch = s.tb.epoch ∧
    c.upstream ≠ s.mgmt.frame

/-- The spacing record one E and the tolerance before tick 300,000. -/
def spacedAt (v : ServoState) : State := (servoAt v).updTb fun t => { t with spacing := some (300000 - 125000 - 256) }

theorem witness_TrackMarkerCorrects :
    reaches .track (markerOf (atTick 300000)) (spacedAt .track) ∧
      (∀ last, (spacedAt .track).tb.spacing = some last →
        (((wholeTicks (atTick 300000) - last).toNat : Int) - (spacedAt .track).tb.epoch).natAbs ≤
          (spacedAt .track).tb.params.spacingTol) ∧
      max (-8388607) (min 8388607 (atTick 300000 + BitVec.ofNat 64 4650 - atTick 300000).toInt) = 4650 ∧
      (4650 : Int).natAbs < (spacedAt .track).tb.params.tstep ∧
      (after (.markerReceived ⟨1, true⟩ (markerOf (atTick 300000)) (atTick 300000)) (spacedAt .track)).tb.slew = 1163 := by
  refine ⟨by unfold reaches; decide +kernel, ?_, by decide +kernel, by decide +kernel, by decide +kernel⟩
  intro last h
  obtain rfl : (300000 - 125000 - 256 : Tick) = last := Option.some.inj h
  decide +kernel

theorem witness_AcquireMarkerSteps :
    reaches .acquire (markerOf (atTick 300000 + 65536 - 4650)) (spacedAt .acquire) ∧
      (∀ last, (spacedAt .acquire).tb.spacing = some last →
        (((wholeTicks (atTick 300000) - last).toNat : Int) - (spacedAt .acquire).tb.epoch).natAbs ≤
          (spacedAt .acquire).tb.params.spacingTol) ∧
      (spacedAt .acquire).tb.params.tstep ≤ (65536 : Int).natAbs ∧
      (after (.markerReceived ⟨1, true⟩ (markerOf (atTick 300000 + 65536 - 4650)) (atTick 300000)) (spacedAt .acquire)).tb.reading =
        65536 := by
  refine ⟨by unfold reaches; decide +kernel, ?_, by decide +kernel, by decide +kernel⟩
  intro last h
  obtain rfl : (300000 - 125000 - 256 : Tick) = last := Option.some.inj h
  decide +kernel

theorem witness_MarkersMoveServo :
    reaches .acquire (markerOf 0) (servoAt .acquire) ∧ reaches .track (markerOf (65536 - 4650)) (servoAt .track) ∧
      (servoAt .acquire).tb.spacing = none ∧ (servoAt .track).tb.spacing = none ∧
      (after (.markerReceived ⟨1, true⟩ (markerOf 0) 0) (servoAt .acquire)).tb.servo = .track ∧
      (after (.markerReceived ⟨1, true⟩ (markerOf (65536 - 4650)) 0) (servoAt .track)).tb.excursions = 1 ∧
      (after (.markerReceived ⟨1, true⟩ (markerOf (65536 - 4650)) 0)
        ((servoAt .track).updTb fun t => { t with excursions := 1 })).tb.reading = 65536 := by
  refine ⟨by unfold reaches; decide +kernel, by unfold reaches; decide +kernel, ?_⟩
  decide +kernel

/-- With a spacing record one E and the tolerance back, on an ACTIVE port and on a draining one. -/
theorem witness_MarkersMoveServo_spaced :
    let drains := fun s : State => s.updPort 1 fun q => { q with link := .draining }
    let takes := fun (e : SubTick) (s : State) =>
      let t := after (.markerReceived ⟨1, true⟩ (markerOf (atTick 300000 + e - 4650)) (atTick 300000)) s
      (t.tb.servo, t.tb.excursions, t.tb.reading)
    let again := fun s : State => s.updTb fun t => { t with excursions := 1 }
    (((300000 - (300000 - 125000 - 256) : Tick).toNat : Int) - 125000).natAbs ≤ (spacedAt .track).tb.params.spacingTol ∧
      [takes 65535 (spacedAt .acquire), takes 65535 (drains (spacedAt .acquire)), takes 65536 (spacedAt .track),
        takes 65536 (drains (spacedAt .track)), takes 65536 (again (spacedAt .track)),
        takes 65536 (drains (again (spacedAt .track)))] =
      [(.track, 0, 0), (.track, 0, 0), (.track, 1, 0), (.track, 1, 0), (.acquire, 0, 65536), (.acquire, 0, 65536)] := by
  decide +kernel

theorem witness_MarkerFaultsHoldOver :
    let c := markerOf (atTick 300001)
    reaches .track c (spacedAt .track) ∧ (spacedAt .track).tb.spacing = some (300000 - 125000 - 256) ∧
      (spacedAt .track).tb.params.spacingTol < (125257 - 125000 : Int).natAbs ∧
      (after (.markerReceived ⟨1, true⟩ c (atTick 300001)) (spacedAt .track)).tb.servo = .holdover ∧
      (after .silenceTimeout (servoAt .acquire)).tb.servo = .holdover := by
  refine ⟨by unfold reaches; decide +kernel, ?_⟩
  decide +kernel

theorem witness_MarkerRecords :
    (after (.markerReceived ⟨1, true⟩ (markerOf 0) 0) (linkAt .training)) = linkAt .training ∧
      ((after (.markerReceived ⟨1, true⟩ { markerOf 0 with epoch := 124999 } 0) (linkAt .active)).port 1).mismatch = true ∧
      (linkAt .active).tb.ref ≠ some 1 ∧ (linkAt .active).mgmt = rig.mgmt ∧
      (((after (.markerReceived ⟨1, true⟩ (markerOf 0) 0) (linkAt .active)).port 1).marker.map (·.hop)) = some 1 := by
  decide +kernel

/-- P1 and P2 eligible, with hops 2 and 1, and P1 the reference. -/
def choiceRig : State :=
  let record := fun (h : Nat) (q : Port) => { q with
    link := .active, peer := 7
    marker := some { sender := 7, epoch := 125000, hop := h, grade := true, aligned := false, upstream := 3, age := 1 } }
  ((servoAt .track).updPort 1 (record 2)).updPort 2 (record 1)

theorem witness_SelectionTakesBestPort :
    choiceRig.tb.role = .member ∧ choiceRig.tb.refMode = .auto ∧ choiceRig.tb.ref = some 1 ∧
      (after .epochBoundary choiceRig).tb.ref = some 2 ∧
      (after .epochBoundary (after (.tbRef 1 1) choiceRig)).tb.ref = some 1 ∧
      (after .epochBoundary (after (.tbRef 1 3) choiceRig)).tb.ref = none ∧
      (after .epochBoundary (choiceRig.updPort 2 fun q => { q with link := .draining })).tb.ref = some 1 := by
  decide +kernel

/-! ### Witnesses: windows and the origin -/

theorem witness_EvaluationMarksWindows :
    let v := (after (.winCfg { window := 0, lower := some 5, upper := some 4, inUse := some 1 }) rig).win.wins[0]
    (v.staged.getD v.inForce).inUse = true ∧ (v.staged.getD v.inForce).upper < (v.staged.getD v.inForce).lower ∧
      ServoState.acquire ≠ ServoState.track ∧ (evaluate 6000 .track false bandRig).win.wins[1].inside = true := by
  decide +kernel

theorem witness_WinCfgSetsWindow :
    (-8388607 : Int).natAbs ≤ 8388607 ∧ rig.tb.role = .member ∧ rootRig.tb.role = .root ∧
      (after (.winCfg { window := 3, lower := some (-8388607), upper := some 8388607, inUse := some 1 }) rootRig).win.wins[3].inForce =
        { lower := -8388607, upper := 8388607, inUse := true, notice := .all } ∧
      (after (.winCfg { window := 3, lower := some 8388608 }) rig).mgmt.answer = some ⟨.badValue, []⟩ := by decide +kernel

theorem witness_QualifierRequests :
    (servoAt .track).tb.role = .member ∧ (servoAt .track).tb.servo = .track ∧ canStore .qualChange (servoAt .track) ∧
      (servoAt .track).win.grade.on = false ∧
      (after (.qualMode 0 1) (servoAt .acquire)).win.stamp.mode ≠ .auto ∧
      (after (.qualMode 0 1) (servoAt .track)).win.stamp.mode ≠ .auto ∧
      (after (.qualMode 0 0) (after (.qualMode 0 1) (servoAt .track))).win.stamp.on = true ∧
      (after (.qualMode 0 0) (after (.qualMode 0 1) (servoAt .acquire))).win.stamp.on = false ∧
      (after (.qualMode 0 0) (after (.qualMode 0 2) rootRig)).win.stamp.on = true := by
  refine ⟨by decide +kernel, by decide +kernel, witness_canStore .qualChange, ?_⟩
  decide +kernel

/-- Both qualifiers on, with drop-on-fault off. -/
def qualsOn (s : State) : State := s.updWin fun u => { u with
  stamp := { u.stamp with on := true, dropOnFault := false }, grade := { u.grade with on := true, dropOnFault := false } }

/-- What a qualifier's request leaves: both states, the status and the notices. -/
def qualLeft (c : Instr) (s : State) : List Bool × Option Status × List (Nat × Nat) :=
  let t := after c s
  ([t.win.stamp.on, t.win.grade.on], t.mgmt.answer.map (·.status), t.mgmt.notices.map fun n => (n.subject.toNat, n.detail.toNat))

/-- A `qual.cfg` of drop-on-fault and origin-required. -/
def qualBits (n : Nat) (drop origin : Option Nat) : Instr :=
  .qualCfg { qualifier := n, dropOnFault := drop, originRequired := origin }

/-- Each qualifier at the ends of the ranges. -/
theorem witness_QualifierRequests_options :
    qualLeft (.qualCfg { qualifier := 1, coupled := some 15, entryOnly := some 1 }) rig = ([false, false], some .ok, []) ∧
      [Instr.qualCfg { qualifier := 0, coupled := some 16 }, .qualCfg { qualifier := 2 }, qualBits 0 (some 2) none,
        .qualMode 2 0, .qualMode 0 3].all (fun c => qualLeft c rig == ([false, false], some .badValue, [])) = true := by
  decide +kernel

/-- Drop-on-fault turned on in HOLDOVER and in TRACK, and origin-required on the root and on a member. -/
theorem witness_QualifierRequests_bits :
    [qualLeft (qualBits 1 (some 1) none) (qualsOn (servoAt .holdover)),
        qualLeft (qualBits 1 (some 1) none) (qualsOn (servoAt .track)),
        qualLeft (qualBits 0 none (some 1)) (qualsOn rootRig), qualLeft (qualBits 0 none (some 1)) (qualsOn rig)] =
      [([true, false], some .ok, [(1, 1536)]), ([true, true], some .ok, []), ([false, true], some .ok, [(0, 1536)]),
        ([true, true], some .ok, [])] := by
  decide +kernel

/-- GRADE forced off, and its return to AUTO in HOLDOVER with the options that keep the state and with one that does not. -/
theorem witness_QualifierRequests_modes :
    let forced := qualsOn (after (.qualMode 1 2) (servoAt .holdover))
    [qualLeft (.qualMode 1 2) (qualsOn rig), qualLeft (.qualMode 1 0) forced,
        qualLeft (.qualMode 1 0) (forced.updWin fun u => { u with limitFlag := true })] =
      [([true, false], some .ok, [(1, 1280)]), ([true, true], some .ok, []), ([true, false], some .ok, [(1, 1280)])] := by
  decide +kernel

theorem witness_OriginApproach :
    rig.tb.role = .member ∧ (originAt .idle).tb.role = .root ∧
      (after .orgArm (originAt .aligned)).org.state = .armed ∧
      (after .orgArm (originAt .settling)).mgmt.answer = some ⟨.state, []⟩ ∧
      (after .orgDisarm (originAt .syncing)).org.disarmPending = true ∧
      (after .startRise (originAt .armed)).org.state = .syncing ∧
      (after .startFall ((originAt .syncing).updOrg fun o => { o with disarmPending := true })).org.state = .idle := by
  decide +kernel

/-- The root in SETTLING with three boundaries to go, at tick 125,000, where one has just passed. -/
def settleRig : State :=
  ((originAt .settling).updOrg fun o => { o with settleCtr := 3 }).updTb fun t => { t with reading := atTick 125000 }

/-- The boundaries that settling takes after a `tb.offset`, of five. -/
def settledAfter (n : Int) : List Bool :=
  let bounds := (List.range 5).map fun i => (List.range (i + 1)).foldl (fun s _ => after .epochBoundary s) (after (.tbOffset n) settleRig)
  bounds.map (·.org.aligned)

/-- R61: none skipped, one skipped by landing on it, two, five, and one passed again, the one just passed. -/
theorem witness_OriginApproach_shift :
    [124999, 125000, 250000, 625000].map settledAfter =
      [[false, false, true, true, true], [false, true, true, true, true], [true, true, true, true, true],
        [true, true, true, true, true]] ∧
      settledAfter (-1) = [false, false, false, true, true] ∧ settledAfter (-125000) = [false, false, false, true, true] ∧
      settledAfter (-125001) = [false, false, false, false, true] := by decide +kernel

theorem witness_OriginRequests_shift :
    let left := fun n : Int => (after (.tbOffset n) settleRig).org
    [125000, -1, -125000, -125001, 2 ^ 47].map (fun n => (left n).settleShift) = [1, -1, -1, -2, 1125899906] ∧
      (left 2).settleCtr = 3 ∧ settleRig.tb.epoch = 125000 ∧
      (after (.tbOffset 125000) (originAt .aligned)).org.settleShift = 0 := by decide +kernel

theorem witness_RefPulsesSetAndMonitor :
    (originAt .idle).tb.role = .root ∧ rig.tb.role = .member ∧
      (after .refPulseEdge (originAt .armed)).org.pulseCount = 1 ∧
      pulseDeviation 62500000 0 125000000 = 62500000 ∧ pulseDeviation 62500001 0 125000000 = -62499999 ∧
      (after .refPulseEdge ((originAt .settling).updTb fun t => { t with reading := atTick 16 })).org.state = .settling ∧
      (after .refPulseEdge ((originAt .settling).updTb fun t => { t with reading := atTick 17 })).org.state = .idle := by
  decide +kernel

theorem witness_OriginRequests :
    (after (.tbOffset (2 ^ 47)) (originAt .idle)).org.value = 2 ^ 47 ∧
      (after (.tbOffset (2 ^ 47 + 1)) (originAt .idle)).mgmt.answer = some ⟨.badValue, []⟩ ∧
      (after (.tbOffset 1) rig).mgmt.answer = some ⟨.notRoot, []⟩ ∧
      (after (.orgCfg { value := some 0, period := some 4097, tolerance := some 2048, settleLen := some 255 })
        (originAt .armed)).org.period = 4097 ∧
      (after (.orgCfg { value := some 0, period := some 4096, tolerance := some 2048, settleLen := some 1 })
        (originAt .armed)).mgmt.answer = some ⟨.badValue, []⟩ ∧
      (after (.orgCfg { value := some 0, period := some 4097, tolerance := some 1, settleLen := some 1 })
        (originAt .syncing)).mgmt.answer = some ⟨.state, []⟩ := by decide +kernel

/-! ### Witnesses: ports and transmission -/

/-- P1 in a link state, with a trigger cell waiting, a block pending for it, and a queued trigger to forward. -/
def busyAt (l : LinkState) : State :=
  let s := (entryAt .live (.slot 0) .running).updPort 1 fun q =>
    { q with link := l, timingQ := [.marker], ctrlQ := [.trigger ⟨9, 5000, 4, 7⟩] }
  (s.updEntry 0 fun e => { e with ring := [block 0 64] }).updTrg fun u =>
    { u with queue := [{ trig 9 5000 with pendPorts := 2 }] }

theorem witness_PortEventsMoveOneLink :
    (3 : PortId) ≠ 1 ∧ exec (.portPresentFall 1) (busyAt .active) = .next (after (.portPresentFall 1) (busyAt .active)) :=
  ⟨by decide, exec_after rfl⟩

theorem witness_PortPresence :
    let settling := fun sig : Bool => (linkAt .settling).updPort 1 fun q => { q with signal := sig }
    canStore .portInserted (settling true) ∧ canStore .portRemoved (linkAt .quiesced) ∧
      ((after (.portDebounceExpiry 1) (settling true)).port 1).link = .training ∧
      ((after (.portDebounceExpiry 1) (settling false)).port 1).link = .waiting ∧
      ((after (.portDebounceExpiry 1) ((settling true).updMgmt fun m => { m with frame := 0 })).port 1).link = .waiting ∧
      ((after (.portPresentRise 0) rig).port 0).link = .settling ∧
      ((after (.portPresentRise 1) (linkAt .disabled)).port 1).link = .disabled ∧
      (after (.portPresentFall 1) (linkAt .quiesced)).mgmt.notices = [noticeNow .portRemoved 1 0 8 (linkAt .quiesced)] ∧
      (after (.portPresentFall 1) (linkAt .settling)).mgmt.notices = [] := by
  refine ⟨witness_canStore .portInserted, witness_canStore .portRemoved, ?_⟩
  decide +kernel

theorem witness_TeardownLeavesNothing :
    ((busyAt .active).port 1).link = .active ∧ ((busyAt .draining).port 1).link = .draining ∧
      (after (.portSignalFall 1) (busyAt .draining)).trg.queue.map (·.pendPorts) = [0] ∧
      ((after (.portCtlDisable 1) (busyAt .active)).entry 0).ring = [] := by decide +kernel

/-- P1 busy and one bad CRC below its threshold, the reference, with credit held for it by entry 0, and a CREDIT owed there and a
limit advertised there by entry 5. -/
def worn : State :=
  let s := ((busyAt .active).updPort 1 fun q => { q with score := 31 }).updTb fun t => { t with ref := some 1 }
  (s.updEntry 0 fun e => { e with credit := e.credit.set 1 ⟨some 9, 2, 1⟩ }).updEntry 5 fun e => { e with
    state := .running, opened := true, rackId := 9, mode := .lossless, source := .port 1, len := 2, lastAdv := some 4
    owedCredit := true }

/-- A retrain, and the bad CRC that reaches the threshold; one below it tears nothing down. -/
theorem witness_TeardownLeavesNothing_more :
    let causes := [Instr.portCtlRetrain 1, .cellBadCrc ⟨1, true⟩]
    let left := fun c : Instr => let t := after c worn; ((t.port 1).link, (t.port 1).ctrlQ, t.tb.ref)
    let owed := fun c : Instr => let t := after c worn; ((t.entry 0).credit[1], (t.entry 5).owedCredit, (t.entry 5).lastAdv)
    ((worn.port 1).link, (worn.port 1).cfg.threshold) = (.active, 32) ∧
      causes.map left = [(.training, [], none), (.isolated, [], none)] ∧
      causes.map owed = List.replicate 2 (⟨none, 0, 0⟩, false, none) ∧
      (after (.cellBadCrc ⟨1, true⟩) (worn.updPort 1 fun q => { q with score := 30 })).tb.ref = some 1 := by decide +kernel

theorem witness_PortSignalMoves :
    let lost := (linkAt .lost).updPort 1 fun q => { q with signal := false }
    ((after (.portSignalRise 1) lost).port 1).link = .training ∧ ((after (.graceExpiry 1) lost).port 1).link = .waiting ∧
      ((after (.portSignalFall 1) (servoAt .track)).port 1).link = .lost ∧
      (after (.portSignalFall 1) (servoAt .track)).tb.servo = .holdover ∧
      ((after (.portSignalFall 1) ((linkAt .active).updPort 1 fun q => { q with cfg := { q.cfg with grace := 0 } })).port 1).link =
        .waiting ∧
      ((after (.signalWaitExpiry 1) ((linkAt .waiting).updPort 1 fun q => { q with signalWait := some 0 })).port 1).cause =
        .noSignal := by decide +kernel

theorem witness_DamagedCellsCount :
    let scored := fun n : Nat => (linkAt .active).updPort 1 fun q => { q with score := n }
    after (.cellBadCrc ⟨1, true⟩) (linkAt .lost) = linkAt .lost ∧ ((after (.cellBadCrc ⟨1, true⟩) (scored 30)).port 1).link = .active ∧
      ((after (.cellBadCrc ⟨1, true⟩) (scored 31)).port 1).link = .isolated ∧
      ((after (.cellBadCrc ⟨1, true⟩) ((linkAt .quiesced).updPort 1 fun q => { q with score := 255 })).port 1).score = 255 ∧
      ((after (.cellUnknownKind ⟨1, true⟩) (scored 31)).port 1).badCrc = 1 := by decide +kernel

theorem witness_ProbesAreAnswered :
    let c : ProbeCell := ⟨7, 1, 1, 0⟩
    let filled := fun n : Nat => (linkAt .active).updPort 1 fun q => { q with timingQ := List.replicate n (.probe 12 1 1) }
    c.sender ≠ rig.mgmt.frame ∧ ((after (.probeReceived ⟨1, true⟩ c 5) (filled 3)).port 1).timingQ.length = 4 ∧
      ((after (.probeReceived ⟨1, true⟩ c 5) (filled 4)).port 1).timingRefused = 1 ∧
      ((after (.probeReceived ⟨1, true⟩ { c with sender := 12 } 5) (linkAt .training)).port 1).cause = .selfLoop ∧
      ((after (.probeReceived ⟨1, true⟩ c 5) (linkAt .draining)).port 1).resumePending = true ∧
      ((after (.probeReceived ⟨1, true⟩ c 5) (linkAt .quiesced)).port 1).link = .training := by decide +kernel

/-- The answer in DRAINING and QUIESCED, with room, without it, and to an own-frame PROBE; discarded where no cell is taken. -/
theorem witness_ProbesAreAnswered_states :
    let at' := fun (l : LinkState) (n : Nat) => (linkAt l).updPort 1 fun q =>
      { q with timingQ := List.replicate n (.echo 12 7 1 2 9) }
    let left := fun (l : LinkState) (n sender : Nat) =>
      let q := (after (.probeReceived ⟨1, true⟩ ⟨sender, 3, 8, 0⟩ 5) (at' l n)).port 1
      (q.link, q.timingQ.length, q.timingQ.getLast? == some (.echo 12 7 3 8 5), q.timingRefused.toNat)
    [left .draining 3 7, left .draining 4 7, left .draining 0 12] =
        [(.draining, 4, true, 0), (.draining, 4, false, 1), (.draining, 0, false, 0)] ∧
      [left .quiesced 3 7, left .quiesced 4 7, left .quiesced 0 12] =
        [(.training, 4, true, 0), (.training, 4, false, 1), (.training, 0, false, 0)] ∧
      [left .active 0 12, left .lost 0 7] = [(.active, 0, false, 0), (.lost, 0, false, 0)] ∧
      left .quiesced 0 7 = (.training, 1, true, 0) ∧
      (let dark := fun g : Nat => (at' .quiesced 1).updPort 1 fun q => { q with signal := false, cfg := { q.cfg with grace := g } }
       [20, 0].map (fun g => ((after (.probeReceived ⟨1, true⟩ ⟨7, 3, 8, 0⟩ 5) (dark g)).port 1).link) = [.lost, .waiting]) := by
  decide +kernel

/-- P1 in TRAINING with probe 8 outstanding. -/
def probeRig : State :=
  (linkAt .training).updPort 1 fun q => { q with train := { q.train with attempt := 3, outstanding := some (8, 1000) } }

theorem witness_EchoesGiveDelay :
    let echo : EchoCell := ⟨7, 12, 3, 8, 0, 0⟩
    (probeRig.port 1).train.responder = none ∧ (probeRig.port 1).train.outstanding = some ((7 : Fin 8).val + 1, 1000) ∧
      ((after (.echoReceived ⟨1, true⟩ echo (1000 + 524288)) probeRig).port 1).train.rts[7] = some 524288 ∧
      ((after (.echoReceived ⟨1, true⟩ echo (1000 + 524289)) probeRig).port 1).train.rts[7] = none ∧
      ((after (.echoReceived ⟨1, true⟩ echo 1000) probeRig).port 1).train.rts[7] = some 0 ∧
      after (.echoReceived ⟨1, true⟩ { echo with attempt := 2 } 1000) probeRig = probeRig ∧
      (let t : Training := { Training.reset with rts := #v[some 4, none, some 524288, none, some 0, none, none, some 9] }
       4 ≤ t.valid.length ∧ ∀ i : Fin 8, t.rts[i].getD 0 ≤ 2 * t.dmax) := by decide +kernel

theorem witness_PortCtlMovesLink :
    let full := (linkAt .active).updPort 1 fun q => { q with ctrlQ := List.replicate 16 .resume }
    ((after (.portCtlEnable 1) (linkAt .disabled)).port 1).link = .settling ∧
      ((after (.portCtlDrain 1) (linkAt .active)).port 1).ctrlQ = [.quiesce] ∧
      ((after (.portCtlDrain 1) full).port 1).quiesceOwed = true ∧
      ((after (.portCtlResume 1) (linkAt .quiesced)).port 1).ctrlQ = [.resume] ∧
      ((after (.portCtlResume 1) ((linkAt .isolated).updPort 1 fun q => { q with present := false })).port 1).link = .empty ∧
      ((after (.portCtlRetrain 1) (linkAt .training)).port 1).train.attempt = 1 ∧
      (after (.portCtlRetrain 1) (linkAt .draining)).mgmt.answer = some ⟨.state, []⟩ := by decide +kernel

/-- A retrain and a resume with signal detect low and high, and every refusal of drain, resume and retrain by link state. -/
theorem witness_PortCtlMovesLink_states :
    let at' := fun (l : LinkState) (sig : Bool) (frame : Nat) => ((linkAt l).updPort 1 fun q =>
      { q with signal := sig, timingQ := [.marker] }).updMgmt fun m => { m with frame := frame }
    let left := fun (c : Instr) (s : State) => let q := (after c s).port 1; (q.link, q.timingQ.length)
    let status := fun (c : Instr) (l : LinkState) => (after c (linkAt l)).mgmt.answer.map (·.status)
    let all := [LinkState.disabled, .empty, .settling, .waiting, .training, .active, .lost, .draining, .quiesced, .isolated]
    let no := some Status.state
    let yes := some Status.ok
    [left (.portCtlRetrain 1) (at' .active true 12), left (.portCtlRetrain 1) (at' .training true 12),
        left (.portCtlRetrain 1) (at' .training false 12), left (.portCtlResume 1) (at' .quiesced false 12),
        left (.portCtlResume 1) (at' .isolated true 12), left (.portCtlResume 1) (at' .isolated true 0),
        left (.portCtlResume 1) (at' .isolated false 12)] =
      [(.training, 0), (.training, 1), (.lost, 0), (.lost, 0), (.training, 1), (.waiting, 1), (.waiting, 1)] ∧
      all.map (status (.portCtlDrain 1)) = [no, no, no, no, no, yes, no, yes, yes, no] ∧
      all.map (status (.portCtlResume 1)) = [no, no, no, no, no, no, no, no, yes, yes] ∧
      all.map (status (.portCtlRetrain 1)) = [no, no, no, no, yes, yes, no, no, no, no] ∧
      (after (.portCtlRetrain 4) rig).mgmt.answer = some ⟨.badValue, []⟩ := by decide +kernel

/-- The end of a drain by completion and by its timer, with resume-pending clear, set by a RESUME, and set by a PROBE. -/
theorem witness_DrainAndResume_ends :
    let at' := fun (pending probe : Bool) => (linkAt .draining).updPort 1 fun q =>
      { q with resumePending := pending, resumeProbe := probe }
    let left := fun (c : Instr) (s : State) => let t := after c s; ((t.port 1).link, t.mgmt.notices.map fun n => (n.kind, n.detail))
    [left (.drainComplete 1) (at' false false), left (.drainTimeout 1) (at' false false),
        left (.drainComplete 1) (at' true false), left (.drainTimeout 1) (at' true false),
        left (.drainTimeout 1) (at' true true)] =
      [(.quiesced, [(.portQuiesced, 0)]), (.quiesced, [(.portQuiesced, 1)]), (.training, [(.portResumed, 0)]),
        (.training, [(.portResumed, 0)]), (.training, [(.portResumed, 1)])] ∧
      drainDone (at' true false) 1 = true ∧ ∀ en, ((at' true false).entry en).state = .closed := by decide +kernel

theorem witness_DrainAndResume :
    let pending := (linkAt .draining).updPort 1 fun q => { q with resumePending := true }
    drainDone (linkAt .draining) 1 = true ∧ ((after (.quiesceReceived ⟨1, true⟩) (linkAt .active)).port 1).link = .draining ∧
      after (.quiesceReceived ⟨1, true⟩) (linkAt .quiesced) = linkAt .quiesced ∧
      ((after (.resumeReceived ⟨1, true⟩) (linkAt .draining)).port 1).resumePending = true ∧
      ((after (.resumeReceived ⟨1, true⟩) (linkAt .quiesced)).port 1).link = .training ∧
      ((after (.drainComplete 1) (linkAt .draining)).port 1).link = .quiesced ∧
      ((after (.drainComplete 1) pending).port 1).link = .training ∧
      ((after (.drainTimeout 1) (busyAt .draining)).port 1).ctrlQ = [] := by decide +kernel

theorem witness_DepartureTakesClassOrder :
    let s := busyAt .active
    let first := after (.cellDeparture 1) s
    let free := fun t : State => t.updPort 1 fun q => { q with flight := none }
    let second := after (.cellDeparture 1) (free first)
    let third := after (.cellDeparture 1) (free second)
    (s.port 1).flight = none ∧ (s.port 1).timingQ = .marker :: [] ∧ (first.port 1).flight.isSome = true ∧
      (first.port 1).timingQ = [] ∧ (first.port 1).ctrlQ = .trigger ⟨9, 5000, 4, 7⟩ :: [] ∧
      (second.port 1).ctrlQ = [] ∧ arbiterGrant (free second) 1 = some (0, 32, 0) ∧
      (third.port 1).flight.isSome = true ∧ arbiterGrant (linkAt .active) 1 = none ∧
      (markerNow (choiceRig.updTb fun t => { t with ref := some 2 })).hop = 2 := by decide +kernel

theorem witness_ArbiterAndCompletion :
    let s := (entryAt .live (.slot 0) .running).updEntry 0 fun e => { e with ring := [block 0 64, block 1 65] }
    let sent := after (.cellDeparture 1) s
    let stale := sent.updPort 1 fun q => { q with flight := q.flight.map fun f => { f with stale := true } }
    arbiterGrant s 1 = some (0, 32, 0) ∧ arbiterGrant rig 1 = none ∧
      ((sent.port 1).flight.map fun f => (f.entry, f.stale)) = some (some 0, false) ∧
      ((after (.cellCompletion 1) sent).entry 0).ring = [block 1 65] ∧
      ((after (.cellCompletion 1) stale).entry 0).ring = [block 0 64, block 1 65] := by decide +kernel

/-- The completion of a block that P2 and S3 still wait for, and of one that only P1 waited for. -/
theorem witness_ArbiterAndCompletion_marks :
    let s := fun (ports : Set4) (slots : Set8) => after (.cellDeparture 1) ((entryAt .live (.slot 0) .running).updEntry 0 fun e =>
      { e with ring := [{ block 0 64 with pendPorts := ports, pendSlots := slots }, block 1 65] })
    let left := fun (ports : Set4) (slots : Set8) =>
      let e := (after (.cellCompletion 1) (s ports slots)).entry 0
      (e.ring.map fun b => (b.seq, b.pendPorts, b.pendSlots), e.counters.retired)
    [left 6 8, left 6 0, left 2 8, left 2 0] =
      [([(0, 4, 8), (1, 2, 0)], 0), ([(0, 4, 0), (1, 2, 0)], 0), ([(0, 0, 8), (1, 2, 0)], 0), ([(1, 2, 0)], 1)] := by
  decide +kernel

theorem witness_CreditsAndQueries :
    let send := entryAt .lossless (.slot 0) .running
    let take := (entryAt .lossless (.port 1) .running).updEntry 0 fun e => { e with destPorts := 4 }
    let full := take.updPort 1 fun q => { q with ctrlQ := List.replicate 16 .resume }
    (send.port 1).link = .active ∧ entryOfRack send 301 = some 0 ∧ entryOfRack send 302 = none ∧
      ((after (.creditReceived ⟨1, true⟩ ⟨301, 0x8000⟩) send).entry 0).credit[1] = ⟨some 0x8000, 0, 0⟩ ∧
      after (.creditReceived ⟨1, true⟩ ⟨301, 5⟩) (entryAt .live (.slot 0) .running) = entryAt .live (.slot 0) .running ∧
      after (.queryReceived ⟨1, true⟩ 301) send = send ∧ ((after (.queryReceived ⟨1, true⟩ 301) take).port 1).ctrlQ = [.credit 0] ∧
      after (.queryReceived ⟨1, true⟩ 301) (after (.queryReceived ⟨1, true⟩ 301) take) = after (.queryReceived ⟨1, true⟩ 301) take ∧
      ((after (.queryReceived ⟨1, true⟩ 301) full).entry 0).owedCredit = true := by decide +kernel

/-! ### Witnesses: streams -/

/-- A request that the checks of R130 accept over a free table. -/
def openReq : StrmOpenReq :=
  { entry := 31, rackId := 1023, mode := 1, source := 0, destPorts := 2, destSlots := 8, base := 3072, len := 1024,
    payload := 512, width := 4, interval := 65536 }

theorem witness_StrmOpenSetsEntry :
    let s := entryAt .live (.slot 1) .running
    openReq.entry = (31 : EntryId).val ∧ (s.entry 31).state = .closed ∧ openReq.mode = StreamMode.lossless.code ∧
      openReq.source = (Source.slot 0).code ∧ 3072 + 1024 ≤ 4096 ∧ openReq.destPorts.toNat < 16 ∧
      ((after (.strmOpen openReq) s).entry 31).state = .ready ∧
      (after (.strmOpen { openReq with destSlots := 1 }) s).mgmt.answer = some ⟨.badValue, []⟩ ∧
      (after (.strmOpen { openReq with rackId := 301 }) s).mgmt.answer = some ⟨.duplicate, []⟩ ∧
      (after (.strmOpen { openReq with base := 65 }) s).mgmt.answer = some ⟨.overlap, []⟩ ∧
      (after (.strmOpen { openReq with source := 1 }) s).mgmt.answer = some ⟨.slotBusy, []⟩ ∧
      (after (.strmOpen { openReq with base := 3073 }) s).mgmt.answer = some ⟨.badValue, []⟩ ∧
      (after (.strmOpen { openReq with entry := 0 }) s).mgmt.answer = some ⟨.busy, []⟩ ∧
      (after (.strmOpen { openReq with entry := 32 }) s).mgmt.answer = some ⟨.badValue, []⟩ := by decide +kernel

theorem witness_StrmStartRuns :
    let slow := (entryAt .live (.slot 0) .ready).updSlot 0 fun q => { q with divider := 1001 }
    let away := (entryAt .live (.slot 0) .ready).updSlot 0 fun q => { q with presence := .settling }
    ((after (.strmStart 0) (entryAt .live (.slot 0) .ready)).entry 0).awaitBoundary = true ∧
      ((after (.strmStart 0) (entryAt .lossless (.port 1) .ready)).port 1).ctrlQ = [.credit 0] ∧
      ((after (.strmStart 0) (entryAt .live (.port 1) .ready)).entry 0).state = .running ∧
      (after (.strmStart 0) slow).mgmt.answer = some ⟨.divider, []⟩ ∧
      (after (.strmStart 0) away).mgmt.answer = some ⟨.state, []⟩ ∧
      (after (.strmStart 0) (entryAt .live (.port 1) .closing)).mgmt.answer = some ⟨.state, []⟩ ∧
      (after (.strmStart 0) rig).mgmt.answer = some ⟨.noEntry, []⟩ ∧
      ((after (.strmStart 0) (entryAt .lossless (.slot 0) .stalled)).entry 0).state = .running := by decide +kernel

/-- An entry with one closed block pending, in a state. -/
def heldAt (v : StreamState) : State := (entryAt .live (.slot 0) v).updEntry 0 fun e => { e with ring := [block 0 64] }

theorem witness_StrmStopAndClose :
    ((after (.strmStop 0) (heldAt .running)).entry 0).state = .ready ∧
      ((after (.strmClose 0) (heldAt .stalled)).entry 0).state = .closing ∧
      ((after (.strmClose 0) (entryAt .live (.slot 0) .ready)).entry 0).state = .closed ∧
      (after (.strmStop 0) (heldAt .ready)).mgmt.answer = some ⟨.state, []⟩ ∧
      (after (.strmClose 0) (heldAt .closing)).mgmt.answer = some ⟨.ok, []⟩ ∧
      (after (.strmClose 0) rig).mgmt.answer = some ⟨.noEntry, []⟩ ∧
      canStore .streamClosed (entryAt .live (.slot 0) .ready) := by
  and_intros
  all_goals first | exact witness_canStore _ | decide +kernel

theorem witness_StrmWindowAndDest :
    let s := heldAt .running
    let other := s.updEntry 1 fun e => { e with state := .ready, rackId := 9, base := 100, len := 4, destSlots := 32 }
    let sets := fun (b l : Nat) => (after (.strmWindow 0 b l) other).mgmt.answer.map (·.status)
    let dest := fun (ap as rp rs : BitVec 8) => (after (.strmDest ⟨0, ap, as, rp, rs⟩) other).mgmt.answer.map (·.status)
    (sets 3072 1024, sets 3073 1024, sets 98 2, sets 98 3, sets 64 2) =
        (some .staged, some .badValue, some .staged, some .overlap, some .ok) ∧
      (after (.strmWindow 0 0 2) (heldAt .closing)).mgmt.answer = some ⟨.state, []⟩ ∧
      (dest 1 0 2 0, dest 2 0 2 0, dest 16 0 0 0, dest 0 32 0 0, dest 0 64 0 0, dest 0 1 0 0) =
        (some .ok, some .badValue, some .badValue, some .slotBusy, some .divider, some .badValue) ∧
      ((after (.strmDest ⟨0, 1, 0, 2, 0⟩) s).entry 0).ring = [] := by decide +kernel

theorem witness_WindowAppliesAtWrap :
    let held := fun n : Nat => (entryAt .live (.port 0) .running).updEntry 0 fun e =>
      { e with len := 4, stagedWin := some (4094, n), ring := [block 1 66, block 2 67] }
    bufferCanonical (held 2) ∧ ((held 2).entry 0).stagedWin = some (4094, 2) ∧ 4094 + 2 ≤ 4096 ∧
      (∀ b ∈ ((held 2).entry 0).ring, b.len ≤ 512) ∧ ((applyWindow 0 (held 2)).entry 0).ring.map (·.slot) = [4094, 4095] ∧
      ((applyWindow 0 (held 2)).entry 0).writePos = 4094 ∧ 1 < ((held 1).entry 0).ring.length := by
  refine ⟨rfl, ?_⟩
  decide +kernel

/-- A LIVE receiving entry in slots 64 to 67 with a staged window of `n` slots, two blocks held and the write position given. -/
def wrapRig (n pos : Nat) : State :=
  (entryAt .live (.port 1) .running).updEntry 0 fun e => { e with
    destPorts := 0, destSlots := 1, len := 4, stagedWin := some (200, n), writePos := pos
    ring := [{ block 0 65 with len := 2 }, { block 1 66 with len := 2 }], nextExp := 2 }

/-- A SAMPLE in slot 67, the last: a wrap, applied by a staged length of 3 and not by 2; in slot 64: no wrap, but one when the
search for it passes the last slot. -/
theorem witness_WindowAppliesAtWrap_placed :
    let takes := fun (n pos : Nat) => (after (.sampleReceived ⟨1, true⟩ ⟨301, 2, 0, true, false, false, none, 0, [7, 8]⟩)
      (wrapRig n pos)).entry 0
    let left := fun (n pos : Nat) => ((takes n pos).base, (takes n pos).stagedWin, (takes n pos).ring.map (·.slot))
    [left 3 67, left 2 67, left 3 64, left 3 66] =
        [(200, none, [200, 201, 202]), (64, some (200, 2), [65, 66, 67]), (64, some (200, 3), [65, 66, 64]),
          (200, none, [200, 201, 202])] ∧
      (takes 3 67).writePos = 200 ∧ (takes 4 67).writePos = 203 ∧ bufferCanonical (wrapRig 3 67) ∧
      entryOfRack (wrapRig 3 67) 301 = some 0 ∧ takerSlots (wrapRig 3 67) ((wrapRig 3 67).entry 0) ≠ 0 := by
  refine ⟨by decide +kernel, by decide +kernel, by decide +kernel, rfl, ?_⟩
  decide +kernel

/-- A SAMPLE of stream 301. -/
def sampleOf (n : Seq) (len : Nat) : SampleCell :=
  ⟨301, n, 77, true, false, false, none, 0, List.replicate len 9⟩

/-- What a SAMPLE on P1 leaves: the ring, and the counts of gaps, skips, duplicates, over-limit and unknown cells. -/
def judged (c : SampleCell) (s : State) : List Seq × List Ctr :=
  let t := after (.sampleReceived ⟨1, true⟩ c) s
  ((t.entry 0).ring.map (·.seq),
    [(t.entry 0).counters.gaps, (t.entry 0).counters.skipped, (t.entry 0).counters.duplicates,
     (t.entry 0).counters.overLimit, (t.port 1).unknownStream])

theorem witness_SamplesReceivedAreJudged :
    let s := (entryAt .live (.port 1) .running).updEntry 0 fun e => { e with destPorts := 0, destSlots := 1 }
    let two := fun m : StreamMode => s.updEntry 0 fun e => { e with mode := m, ring := [block 0 64, block 1 65] }
    entryOfRack s 301 = some 0 ∧ bufferCanonical s ∧ judged (sampleOf 0 16) s = ([0], [0, 0, 0, 0, 0]) ∧
      judged (sampleOf 0x7FFF 2) s = ([0x7FFF], [0x7FFF, 0, 0, 0, 0]) ∧
      judged (sampleOf 0x8000 2) s = ([], [0, 0, 1, 0, 0]) ∧ judged (sampleOf 0 18) s = ([], [0, 0, 0, 0, 1]) ∧
      judged (sampleOf 0 3) s = ([], [0, 0, 0, 0, 1]) ∧ judged (sampleOf 2 2) (two .live) = ([1, 2], [2, 1, 0, 0, 0]) ∧
      judged (sampleOf 2 2) (two .lossless) = ([0, 1], [0, 0, 0, 1, 0]) ∧
      judged { sampleOf 0 2 with rackId := 9 } s = ([], [0, 0, 0, 0, 1]) ∧
      (s.entry 0).ring.length < (s.entry 0).len ∧ takerSlots s (s.entry 0) ≠ 0 := by
  refine ⟨by decide +kernel, rfl, ?_⟩
  decide +kernel

/-! ### Witnesses: slots -/

theorem witness_SourceInstantsTakeSamples :
    let s := entryAt .live (.slot 0) .running
    let one := after (.sampleInstant 0 true 0x01020304) s
    let two := after (.sampleInstant 0 true 5) one
    let shut := after (.sampleInstant 0 false 0) two
    let gated := s.updEntry 0 fun e => { e with gate := true }
    sourceEntry s 0 = some 0 ∧ sinkEntry s 0 = none ∧ (s.slot 0).presence = .present ∧ (s.slot 0).divider ≠ 0 ∧
      ((s.entry 0).awaitBoundary, (s.entry 0).hold, (s.entry 0).outside) = (false, false, none) ∧
      (one.entry 0).ring.map (fun b => (b.seq, b.len, b.isOpen)) = [(0, 2, true)] ∧
      Memory.readBytes one.buffer (64 * 512) 2 = [3, 4] ∧ Memory.readBytes two.buffer (64 * 512) 4 = [3, 4, 0, 5] ∧
      (shut.entry 0).ring.map (fun b => (b.short, b.pendPorts)) = [(true, 2)] ∧
      ((after (.sampleInstant 0 true 5) gated).entry 0).counters.gated = 1 ∧
      ((after (.sampleInstant 0 true 5) (s.updEntry 0 fun e => { e with destPorts := 0 })).entry 0).counters.unrouted = 1 ∧
      ((after (.sampleInstant 0 true 5) (entryAt .live (.slot 0) .stalled)).entry 0).counters.overrun = 1 ∧
      ((after (.sampleInstant 0 true 5) (s.updEntry 0 fun e => { e with hold := true })).slot 0).counters.heldInstants = 1 ∧
      ((after (.sampleInstant 0 true 5) (entryAt .live (.slot 0) .ready)).slot 0).counters.instants = 1 := by
  decide +kernel

/-- S0 as the sink of entry 0, whose one block is due at tick 3,000, at a reading that passes a tick. -/
def sinkRig (t : Tick) (len : Nat) : State :=
  ((entryAt .live (.port 1) .running).updEntry 0 fun e =>
    { e with
      destPorts := 0, destSlots := 1, latency := 1000
      ring := [{ block 6 64 with stamp := 1001, len := len, pendPorts := 0, pendSlots := 1 }] }).updTb fun b =>
    { b with advFrom := t - 1, reading := atTick t }

theorem witness_SinkInstantsPlayOut :
    let play := fun (t : Tick) (len : Nat) => after (.sampleInstant 0 false 0) (sinkRig t len)
    let bare := (sinkRig 3000 4).updEntry 0 fun e => { e with ring := [] }
    presentationInstant 2001 1000 0 = 3000 ∧ presentationInstant (-1) 65536 65535 = -1 ∧ presentationInstant (-1) 2 0 = 0 ∧
      sinkEntry (sinkRig 3000 4) 0 = some 0 ∧ sourceEntry (sinkRig 3000 4) 0 = none ∧
      gridPassed 2999 3000 1000 0 = some 3000 ∧
      (((play 3000 4).slot 0).presenting, ((play 3000 4).slot 0).counters.samplesOut) = (some (6, 1), 1) ∧
      (((play 3000 2).slot 0).presenting, ((play 3000 2).entry 0).ring) = (none, []) ∧
      ((play 2000 4).slot 0).presenting = none ∧ ((play 4000 4).entry 0).counters.late[0] = 1 ∧
      ((after (.sampleInstant 0 false 0) (bare.updSlot 0 fun q => { q with playingFlag := true })).slot 0).underrun = true ∧
      ((after (.sampleInstant 0 false 0) (play 3000 4)).entry 0).ring = [] := by decide +kernel

theorem witness_SlotPresenceAndSettings :
    let settling := rig.updSlot 7 fun q => { q with presence := .settling, debounce := some 0 }
    canStore .slotInserted settling ∧ canStore .slotRemoved (heldAt .running) ∧
      ((after (.slotDebounceExpiry 7) settling).slot 7).presence = .present ∧
      ((after (.slotPresentRise 7) rig).slot 7).presence = .settling ∧
      ((after (.slotPresentFall 7) settling).slot 7).presence = .empty ∧
      ((after (.slotPresentFall 0) (heldAt .running)).entry 0).state = .ready ∧
      ((after (.slotPresentFall 0) (sinkRig 1 4)).entry 0).ring = [] ∧
      ((after (.slotCfg { slot := 7, debounce := some 255, strobe := some 2, subscription := some 1 }) rig).slot 7).cfg =
        { debounce := 255, strobe := .epochAndBlock, subscription := 1 } ∧
      (after (.slotCfg { slot := 7, strobe := some 3 }) rig).mgmt.answer = some ⟨.badValue, []⟩ := by
  refine ⟨witness_canStore .slotInserted, witness_canStore .slotRemoved, ?_⟩
  decide +kernel

/-- A fall of Sn_PRESENT keeps the counters; the source block that closes strobes in EPOCH_AND_BLOCK. -/
theorem witness_SlotPresenceAndSettings_counters :
    let s := fun m : StrobeMode => ((heldAt .running).updEntry 0 fun e => { e with ring := [{ block 0 64 with isOpen := true }] }).updSlot 0
      fun q => { q with cfg := { q.cfg with strobe := m }, counters := { q.counters with instants := 9, strobePulses := 5 } }
    let left := fun m : StrobeMode => ((after (.slotPresentFall 0) (s m)).slot 0).counters
    left .epochAndBlock = { SlotCounters.zero with instants := 9, strobePulses := 6 } ∧
      left .epoch = { SlotCounters.zero with instants := 9, strobePulses := 5 } := by decide +kernel

theorem witness_SlotClockIsStaged :
    let req := fun (d p : Nat) (s : State) =>
      (after (.slotClk { slot := 0, divider := some d, phase := some p }) s).mgmt.answer.map (·.status)
    let idle := entryAt .live (.slot 0) .ready
    (req 1 0 idle, req 65537 0 idle, req 2 2 idle, req 0 1 idle) =
        (some .badValue, some .badValue, some .badValue, some .badValue) ∧
      (req 0 0 idle, req 2 1 idle, req 65536 65535 idle, req 1000 0 idle, req 1000 999 idle) =
        (some .staged, some .staged, some .divider, some .ok, some .staged) ∧
      req 500 0 (entryAt .live (.slot 0) .closing) = some .state ∧
      ((after .epochBoundary clockRig).slot 3).divider = 2000 ∧
      ((after .epochBoundary (clockRig.updTb fun t => { t with epochStaged := some 121000 })).slot 3).divider = 1000 := by
  decide +kernel

/-! ### Witnesses: triggers and the management port -/

theorem witness_TriggersAreTaken :
    let now := rig.updTb fun t => { t with reading := atTick 5000 }
    let status := fun (x : Nat) (s : State) => (after (.trgSched x 4 (some 31)) s).mgmt.answer.map (·.status)
    let few := trigRig.updTrg fun u => { u with queue := u.queue.drop 1 }
    (status 5001 now, status 5000 now, status (5000 - 1250) now, status (5000 - 1251) now) =
        (some .ok, some .ok, some .ok, some .tooLate) ∧
      (status (2 ^ 56 - 1) now, status (2 ^ 56) now) = (some .tooLate, some .badValue) ∧
      status 5001 State.reset = some .state ∧ status 5001 trigRig = some .queueFull ∧ status 5001 few = some .ok ∧
      status 5001 (now.updTrg fun u => { u with history := [done (12 * 1024) .fired] }) = some .duplicate ∧
      (after (.trgSched 5001 4 none) now).trg.queue.map (·.id) = [12 * 1024] ∧
      (after (.trgCfg (some 65535) (some 31)) rig).trg.lateWindow = 65535 ∧
      (after (.trgCfg (some 65536) (some 31)) rig).mgmt.answer = some ⟨.badValue, []⟩ ∧
      after (.triggerReceived ⟨1, true⟩ ⟨900, 5001, 4, 3⟩) rig = rig ∧
      (after (.triggerReceived ⟨1, true⟩ ⟨0, 5001, 4, 3⟩) trigRig).trg.duplicate = 1 ∧
      (after (.triggerReceived ⟨1, true⟩ ⟨900, 5001, 4, 3⟩) trigRig).trg.dropped = 1 ∧
      ((after (.triggerReceived ⟨1, true⟩ ⟨900, 5001, 4, 3⟩) (linkAt .active)).trg.queue.map fun x => (x.id, x.arrival, x.pendPorts)) =
        [(900, some 1, 0)] ∧ canStore .triggerDropped trigRig := by
  and_intros
  all_goals first | exact witness_canStore _ | decide +kernel

/-- P0 and P1 ACTIVE, P0's control queue holding a number of cells. -/
def floodRig (n : Nat) : State :=
  ((linkAt .active).updPort 0 fun q => { q with link := .active, ctrlQ := List.replicate n .quiesce }).updTrg fun u =>
    { u with queue := [trig 7 4000, trig 9 6000], history := [done 4 .stale] }

/-- A TRIGGER taken on P1 at its place between two others: to P0 while its queue has room, owed to it at 16, and to none with a
hop limit of 0. -/
theorem witness_TriggersAreTaken_flood :
    let takes := fun (n hop : Nat) => after (.triggerReceived ⟨1, true⟩ ⟨900, 5000, 4, hop⟩) (floodRig n)
    let left := fun (n hop : Nat) => ((takes n hop).trg.queue.map fun x => (x.id.toNat, x.pendPorts, x.owedPorts),
      (((takes n hop).port 0).ctrlQ.drop n), ((takes n hop).port 1).ctrlQ.length)
    [left 15 3, left 16 3, left 0 0] =
      [([(7, 0, 0), (900, 1, 0), (9, 0, 0)], [.trigger ⟨900, 5000, 4, 2⟩], 0),
        ([(7, 0, 0), (900, 1, 1), (9, 0, 0)], [], 0), ([(7, 0, 0), (900, 0, 0), (9, 0, 0)], [], 0)] := by decide +kernel

/-- The rig whose P0 has a full control queue, its last cell the TRIGGER of id 9. -/
def cellFullRig : State := (floodRig 15).updPort 0 fun q => { q with ctrlQ := q.ctrlQ ++ [.trigger ⟨9, 6000, 4, 7⟩] }

/-- The flood of the newest record of the history after a command. -/
def newestFlood (c : Instr) : Option (Nat × Option (Set4 × Set4)) :=
  (after c cellFullRig).trg.history.getLast?.map fun r => (r.id.toNat, r.forward.map fun f => (f.pendPorts, f.owedPorts))

/-- The last control cells of P0 and P1 after a command. -/
def lastCells (c : Instr) : List (Option ControlCell) :=
  [((after c cellFullRig).port 0).ctrlQ.getLast?, ((after c cellFullRig).port 1).ctrlQ.getLast?]

/-- CANCEL cells and `trg.cancel` for a queued id, whose waiting TRIGGER makes room, and for one held nowhere. -/
theorem witness_TriggersFireAndCancel_flood :
    [newestFlood (.cancelReceived ⟨1, true⟩ ⟨9, 3⟩), newestFlood (.cancelReceived ⟨1, true⟩ ⟨5, 3⟩),
        newestFlood (.cancelReceived ⟨1, true⟩ ⟨5, 0⟩), newestFlood (.trgCancel 9 (some 1)),
        newestFlood (.trgCancel 5 (some 31))] =
      [some (9, some (1, 0)), some (5, some (1, 1)), some (5, none), some (9, some (3, 0)), some (5, some (3, 1))] ∧
    [lastCells (.cancelReceived ⟨1, true⟩ ⟨9, 3⟩), lastCells (.cancelReceived ⟨1, true⟩ ⟨5, 3⟩),
        lastCells (.cancelReceived ⟨1, true⟩ ⟨5, 0⟩)] =
      [[some (.cancel ⟨9, 2⟩), none], [some (.trigger ⟨9, 6000, 4, 7⟩), none], [some (.trigger ⟨9, 6000, 4, 7⟩), none]] ∧
    [lastCells (.trgCancel 9 (some 1)), lastCells (.trgCancel 5 (some 31))] =
      [[some (.cancel ⟨9, 0⟩), some (.cancel ⟨9, 0⟩)], [some (.trigger ⟨9, 6000, 4, 7⟩), some (.cancel ⟨5, 30⟩)]] ∧
    (after (.cancelReceived ⟨1, true⟩ ⟨5, 3⟩) cellFullRig).trg.cancelled = 0 := by decide +kernel

theorem witness_TriggersFireAndCancel :
    let s := (heldAt .running).updTrg fun u => { u with queue := [trig 9 100], history := [done 3 .tombstone, done 4 .fired] }
    let open' := (after (.sampleInstant 0 true 5) (entryAt .live (.slot 0) .running)).updTrg fun u =>
      { u with queue := [trig 9 100] }
    let status := fun (i : Nat) => (after (.trgCancel i (some 31)) s).mgmt.answer
    s.trg.queue.find? (fun y => y.id == (trig 9 100).id) = some (trig 9 100) ∧
      (after (.triggerFire 9) s).trg.queue = [] ∧ ((after (.triggerFire 9) s).entry 0).waiting = [9] ∧
      ((after (.triggerFire 9) open').entry 0).ring.map (·.mark) = [some (9, 1)] ∧ after (.triggerFire 8) s = s ∧
      (status 9, status 3, status 4, status 5) =
        (some ⟨.ok, [0, 9, 0]⟩, some ⟨.ok, [0, 3, 1]⟩, some ⟨.tooLate, [0, 4, 0]⟩, some ⟨.ok, [0, 5, 2]⟩) ∧
      (after (.cancelReceived ⟨1, true⟩ ⟨9, 0⟩) s).trg.cancelled = 1 ∧ after (.cancelReceived ⟨1, true⟩ ⟨3, 0⟩) s = s ∧
      (after (.cancelReceived ⟨1, true⟩ ⟨4, 0⟩) s).trg.cancelLate = 1 := by decide +kernel

theorem witness_SpiTransactions :
    let asked := after (.requestFrameWrite [0x13, 5, 0]) rig
    let replied := after .replyMadeReady (after .tbNow asked)
    (0 : Byte) ≠ 0xC3 ∧ (0 : Byte) ≠ 0x3C ∧ asked.mgmt.inDecode.isSome = true ∧ asked.mgmt.answer = none ∧
      (after .tbNow asked).mgmt.answer.isSome = true ∧ replied.mgmt.replySlot.isSome = true ∧
      (after (.replyRead 13) replied).mgmt.replySlot.isSome = true ∧ (after (.replyRead 14) replied).mgmt.replySlot = none ∧
      (after (.requestFrameWrite [0x13, 5, 1]) rig).mgmt.answer = some ⟨.badFrame, []⟩ ∧
      (after (.requestFrameWrite [0x13, 5]) rig).mgmt.answer = some ⟨.badFrame, []⟩ ∧
      (after (.requestFrameWrite [0x16, 5, 0]) rig).mgmt.answer = some ⟨.badKind, []⟩ ∧
      (after (.requestFrameWrite [0x13, 5, 1, 0]) rig).mgmt.answer = some ⟨.badValue, []⟩ ∧
      (after (.spiUnknownTransaction 0 2) rig).mgmt.sdo = [0, 0] := by decide +kernel

theorem witness_ResetsAndFrame :
    let waiting := linkAt .waiting
    (after (.hubFrame 63) waiting).mgmt.frame = 63 ∧ ((after (.hubFrame 1) waiting).port 1).link = .training ∧
      (after (.hubFrame 64) waiting).mgmt.answer = some ⟨.badValue, []⟩ ∧
      (after (.hubFrame 0) waiting).mgmt.answer = some ⟨.badValue, []⟩ ∧
      (after (.hubFrame 5) (linkAt .lost)).mgmt.answer = some ⟨.state, []⟩ ∧
      (after (.resetPin false ⟨true, false⟩) heldRig).mgmt.notices.length = 2 ∧
      ((after (.resetPin false ⟨false, true⟩) heldRig).port 1).link = .settling ∧
      ((after .hubResetTraffic (heldAt .running)).entry 0).state = .closed ∧
      ((after (.hubResetAll false true) (after (.requestFrameWrite [3, 1, 1, 1]) rig)).mgmt.inDecode.map (·.tag)) = some 1 := by
  decide +kernel

/-- RESET asserted: the block held, transactions and time that pass over it, the levels of the pins, and its release. -/
theorem witness_ResetsAndFrame_held :
    let raised := after (.slotPresentRise 3) (after .startRise (after (.portPresentRise 2) heldRig))
    let freed := after (.resetPin false ⟨false, true⟩) raised
    (heldRig.port 1).link = .disabled ∧ (heldRig.port 1).present = true ∧ heldRig.mgmt.frame = 0 ∧
      [Instr.requestFrameWrite [0x13, 5, 0], .replyRead 6, .spiUnknownTransaction 0 2, .oscillatorTick, .hubFrame 9,
        .hubResetAll true true, .resetPin true ⟨true, true⟩].all (fun c => decide (after c heldRig = heldRig)) = true ∧
      ((raised.port 2).link, (raised.slot 3).presence, raised.org.startLevel) = (.disabled, .empty, true) ∧
      ((freed.port 2).link, (freed.slot 3).presence, freed.inReset) = (.settling, .settling, false) ∧
      after (.resetPin false ⟨false, true⟩) rig = rig ∧ holdBlocks raised = raised ∧
      occurs (.requestFrameWrite []) heldRig = false ∧ occurs (.resetPin false ⟨true, true⟩) heldRig = true := by
  decide +kernel

theorem witness_NtcGetTakesClassOrder :
    (after (.ntcGet (some 0)) fetchRig).mgmt.answer = some ⟨.badValue, []⟩ ∧
      (after (.ntcGet (some 16)) fetchRig).mgmt.answer = some ⟨.badValue, []⟩ ∧
      (after (.ntcGet (some 15)) fullRig).mgmt.notices.length = 17 ∧ (after (.ntcGet (some 1)) fullRig).mgmt.notices.length = 31 ∧
      (after (.ntcGet none) fetchRig).mgmt.notices = [] := by decide +kernel

theorem witness_NtcMaskSetsMasks :
    let mask := fun r : NtcMaskReq => (after (.ntcMask r) rig).mgmt
    (mask ⟨32, 0, 0, 0⟩).answer = some ⟨.badValue, []⟩ ∧ (mask ⟨0, 2 ^ 36, 0, 0⟩).answer = some ⟨.badValue, []⟩ ∧
      (mask ⟨1, 0, 0, 1⟩).answer = some ⟨.badValue, []⟩ ∧ (mask ⟨1, 2 ^ 35, 2, 0⟩).masked = 2 ^ 35 + 255 := by decide +kernel

theorem witness_AttnFollowsNotices :
    rig.mgmt.notices = [] ∧ rig.mgmt.masked.getLsbD NoticeKind.portLost.code = false ∧ 32 ≤ fullRig.mgmt.notices.length ∧
      State.attn (raiseNotice .portLost 1 0 0 rig) = true ∧
      (raiseNotice .portLost 1 0 0 (fullRig.updMgmt fun m => { m with lostCount := 65535 })).mgmt.lostCount = 65535 ∧
      raiseNotice .portLost 1 0 0 (rig.updMgmt fun m => { m with masked := 4 }) =
        (rig.updMgmt fun m => { m with masked := 4 }) ∧
      fetchRig.mgmt.notices.length ≤ 15 := by decide +kernel

theorem witness_ReadoutsReply :
    (rig.port 3).timingQ.length ≤ 4 ∧ (fullRig.port 1).ctrlQ.length ≤ 16 ∧ (fullRig.port 1).timingQ.length ≤ 4 ∧
      (after (.trgList 0 15) trigRig).mgmt.answer.map (·.body.length) = some 54 ∧
      (after (.trgList 2 0) trigRig).mgmt.answer = some ⟨.badValue, []⟩ ∧
      (after (.trgList 0 16) trigRig).mgmt.answer = some ⟨.badValue, []⟩ ∧
      (after (.portStat 4) rig).mgmt.answer = some ⟨.badValue, []⟩ ∧ (after (.strmStat 32) rig).mgmt.answer = some ⟨.badValue, []⟩ ∧
      (after (.slotStat 8 true) rig).mgmt.answer = some ⟨.badValue, []⟩ := by decide +kernel

/-- Cells at the ends of their ranges and just outside them, of no known kind, of another size, cut short and too long. -/
theorem witness_CellsRoundTrip_unfit :
    let arrives := fun bs => arrivalCommand ⟨1, true⟩ 0 bs
    let whole := fun (kind : Byte) (n : Nat) =>
      let head := kind :: beBytes 2 n ++ List.replicate n (0 : Byte)
      head ++ beBytes 2 (linkCrc head).toNat
    let hop := fun n => Cell.marker { markerOf 5 with hop := n }
    let load := fun n => Cell.sample (sampleOf 7 n)
    (cellInRange (hop 31), cellInRange (hop 32), cellInRange (load 0), cellInRange (.query 1023), cellInRange (.query 1024)) =
        (true, false, false, true, false) ∧
      [hop 32, load 0, .query 0, .query 1024, .probe ⟨7, 1, 9, 0⟩].map (fun c => arrives (encodeCell c)) =
        List.replicate 5 (.cellUnknownKind ⟨1, true⟩) ∧
      [whole 0x04 0, whole 0x01 15, whole 0x14 1, whole 0x20 18, whole 0x20 19].map arrives =
        List.replicate 5 (.cellUnknownKind ⟨1, true⟩) ∧
      [[], [1, 0], (whole 0x14 0).dropLast, 0x20 :: beBytes 2 532, whole 0x14 0 |>.set 4 0].map arrives =
        List.replicate 5 (.cellBadCrc ⟨1, true⟩) ∧ arrives (whole 0x14 0) = .quiesceReceived ⟨1, true⟩ := by decide +kernel

theorem witness_CellsRoundTrip :
    cellInRange (.marker (markerOf 5)) = true ∧ cellInRange (.sample (sampleOf 7 2)) = true ∧ (1 : Byte) ≠ 2 ∧
      arrivalCommand ⟨1, true⟩ 9 (encodeCell (.marker (markerOf 5))) =
        .markerReceived ⟨1, true⟩ (markerOf 5) 9 := by decide +kernel

/-! ### Witnesses of further clauses, at the values where they meet -/

/-- The staged divider of a slot bound to a running entry does not divide E in force. -/
def clashRig : State := clockRig.updEntry 0 fun e => { e with state := .running, opened := true, source := .slot 3 }

theorem witness_TbCfgSetsTimebase_bounds :
    let sets := fun s : State => after (.tbCfg { epoch := some 125000 }) s
    let clamps := fun v : Nat => (after (.tbCfg { tstep := some v }) rig).tb.params.tstep
    (clashRig.slot 3).stagedClk = some (2000, 1) ∧ clashRig.tb.epoch % 2000 ≠ 0 ∧ clashRig.tb.epoch = 125000 ∧
      sets clockRig = answered .ok [] (clockRig.updTb fun t => { t with epochStaged := none }) ∧
      sets (clashRig.updTb fun t => { t with epochStaged := none }) =
        answered .ok [] (clashRig.updTb fun t => { t with epochStaged := none }) ∧
      sets clashRig = answered .divider [] clashRig ∧
      [0, 255, 256, 257, 8388607].map clamps = [256, 256, 256, 257, 8388607] ∧
      ([{ role := some 2 }, { epoch := some 4095 }, { epoch := some 16777216 }, { tstep := some 8388608 },
        { p := some 16 }, { i := some 16 }, { fmax := some 65536 }, { smax := some 0 }, { smax := some 65536 },
        { spacingTol := some 0 }, { spacingTol := some 4097 }, { autoRecover := some 2 }, { holdoverLimit := some 65536 }] : List TbCfgReq).all
          (fun r => decide (after (.tbCfg r) limitRig = answered .badValue [] limitRig)) = true := by decide +kernel

/-- A member in HOLDOVER on P1 with a count of good spacings, its last marker one E before tick 300,000. -/
def heldOver (good : Nat) (auto : Bool) : State :=
  (servoAt .holdover).updTb fun t =>
    { t with spacing := some (300000 - 125000), goodSpacings := good, params := { t.params with autoRecover := auto } }

theorem witness_MarkerFaultsHoldOver_recovery :
    let at' := fun (c a : SubTick) (s : State) => (after (.markerReceived ⟨1, true⟩ (markerOf (c - 4650)) a) s).tb
    let on := atTick 300000
    reaches .holdover (markerOf on) (heldOver 3 true) ∧
      at' on on (heldOver 2 true) =
        { (heldOver 2 true).tb with lastE := 0, spacing := some 300000, goodSpacings := 3 } ∧
      at' on on (heldOver 3 false) =
        { (heldOver 3 false).tb with lastE := 0, spacing := some 300000, goodSpacings := 4 } ∧
      at' on on (heldOver 255 false) = { (heldOver 255 false).tb with lastE := 0, spacing := some 300000 } ∧
      at' (on + 1) (atTick 300257) (heldOver 3 true) =
        { (heldOver 3 true).tb with lastE := 1 - 65792, spacing := some 300257, goodSpacings := 0 } ∧
      (let t := at' (on + 65535) on (heldOver 3 true)
       (t.servo, t.goodSpacings, t.slew, t.lastE, t.reading) = (.track, 0, 4096, 65535, 0)) ∧
      (let t := at' (on + 65536) on (heldOver 3 true)
       (t.servo, t.goodSpacings, t.slew, t.lastE, t.reading) = (.acquire, 0, 0, 65536, 65536)) ∧
      at' on on ((heldOver 2 true).updTb fun t => { t with spacing := none }) =
        { (heldOver 2 true).tb with lastE := 0, spacing := some 300000 } := by
  refine ⟨by unfold reaches; decide +kernel, ?_⟩
  decide +kernel

/-- A member in HOLDOVER two boundaries short of its limit, with both qualifiers on. -/
def limitedRig (count limit : Nat) : State :=
  ((servoAt .holdover).updTb fun t =>
    { t with holdoverCount := count, params := { t.params with holdoverLimit := limit } }).updWin fun u =>
      { u with stamp := { u.stamp with on := true }, grade := { u.grade with on := true } }

theorem witness_MarkerFaultsHoldOver_limit :
    let at' := fun (c l : Nat) =>
      let t := after .epochBoundary (limitedRig c l)
      (t.tb.holdoverCount, t.tb.holdoverLimitHit, t.win.stamp.on, t.win.grade.on, t.mgmt.notices.map (·.kind))
    (limitedRig 1 2).tb.epochStaged = none ∧ (limitedRig 1 2).win.stamp.mode = .auto ∧
      at' 0 2 = (1, false, true, true, [.refChanged]) ∧
      (at' 1 2).1 = 2 ∧ (at' 1 2).2.1 = true ∧ (at' 1 2).2.2.1 = false ∧ (at' 1 2).2.2.2.1 = false ∧
      (at' 1 2).2.2.2.2.head? = some .holdoverLimit ∧ (at' 65535 0).1 = 65535 ∧ (at' 65535 0).2.1 = false := by
  decide +kernel

/-- A MARKER whose sender takes this hub as its upstream. -/
def looped : MarkerCell := { markerOf 0 with upstream := 12 }

theorem witness_MarkerRecords_looped :
    let s := (servoAt .track).updTb fun t => { t with spacing := some 1, excursions := 1, slew := 5, goodSpacings := 2 }
    let t := after (.markerReceived ⟨1, true⟩ looped 0) s
    let u := after (.markerReceived ⟨1, true⟩ looped 0) (servoAt .free)
    looped.upstream = s.mgmt.frame ∧ looped.epoch = s.tb.epoch ∧ canStore .refChanged s ∧
      t.tb = { s.tb with
        ref := none, spacing := none, goodSpacings := 0, excursions := 0, servo := .holdover, slew := 0, holdoverCount := 0
        holdoverLimitHit := false, silence := none } ∧
      ((t.port 1).marker.map fun m => (m.upstream, m.age)) = some (12, 0) ∧
      (t.mgmt.notices.head?.map fun n => (n.kind, n.subject, n.detail)) = some (.refChanged, 0xFFFF, 1) ∧
      (u.tb.servo, u.tb.silence, u.tb.ref) = (.free, some 375000, none) := by
  refine ⟨rfl, rfl, witness_canStore .refChanged, ?_⟩
  decide +kernel

theorem witness_MarkerRecords_draining :
    let took := fun c : MarkerCell => (after (.markerReceived ⟨1, true⟩ c 0) (linkAt .draining)).port 1
    ((took (markerOf 0)).marker.map (·.sender), (took (markerOf 0)).mismatch) = (some 7, false) ∧
      ((took { markerOf 0 with epoch := 4096 }).marker.map (·.sender), (took { markerOf 0 with epoch := 4096 }).mismatch) =
        (none, true) := by decide +kernel

theorem witness_MarkerRecords_boundary :
    let aged := fun n : Nat => choiceRig.updPort 1 fun q => { q with marker := q.marker.map fun m => { m with age := n } }
    let age := fun n : Nat => ((after .epochBoundary (aged n)).port 1).marker.map (·.age)
    let waiting := fun (l : LinkState) (q : List TimingCell) =>
      let p := (after .epochBoundary ((linkAt l).updPort 1 fun x => { x with timingQ := q })).port 1
      (p.timingQ, p.markerReplaced, p.timingRefused)
    let probes := fun n : Nat => List.replicate n (TimingCell.probe 1 1 1)
    (age 0, age 254, age 255) = (some 1, some 255, some 255) ∧
      waiting .active (.marker :: probes 3) = (.marker :: probes 3, 1, 0) ∧
      waiting .active (probes 3) = (probes 3 ++ [.marker], 0, 0) ∧ waiting .active (probes 4) = (probes 4, 0, 1) ∧
      waiting .draining (probes 4) = (probes 4, 0, 0) := by decide +kernel

/-- Windows 0 and 1 with notice options, both with e inside at the last evaluation or not. -/
def noticeRig (a b : NoticeOption) (reported valid : Bool) (prev : Int) : State :=
  (servoAt .track).updWin fun u =>
    let w := fun (lo hi : Int) (n : NoticeOption) =>
      { Window.reset with inForce := { lower := lo, upper := hi, inUse := true, notice := n }, reported := reported }
    { u with wins := (u.wins.set 0 (w (-2000) 2000 a)).set 1 (w 1500 6000 b), prevValid := valid, prevE := prev }

/-- The notices of an evaluation, and the bands it leaves to windows 0 and 1. -/
def marks (e : Int) (s : State) : List (NoticeKind × Nat × Int) × Option Int × Option Int :=
  let t := evaluate e .acquire false s
  (t.mgmt.notices.map fun n => (n.kind, n.subject.toNat, n.detail), t.win.wins[0].band, t.win.wins[1].band)

theorem witness_EvaluationMarksWindows_notices :
    [marks 1700 (noticeRig .all .all false true 9000), marks 1700 (noticeRig .all .all false true (-9000)),
        marks 1700 (noticeRig .all .none false false 0), marks 1700 (noticeRig .entryOnly .none false true 9000),
        marks 9000 (noticeRig .all .entryOnly true true 0)] =
      [([(.windowEntry, 0, 1700), (.windowEntry, 1, 1700)], some 2000, some 6000),
        ([(.windowEntry, 0, 1700), (.windowEntry, 1, 1700)], some (-2000), some 1500), ([], some 2000, some 1500),
        ([(.windowEntry, 0, 1700)], some 2000, some 6000), ([(.windowExit, 0, 9000)], some 2000, some 6000)] := by
  decide +kernel

theorem witness_EvaluationMarksWindows_bands :
    ([1756, 2256, 2257].map fun e : Int =>
      ((marks e (evaluate 1700 .acquire false (noticeRig .all .all false true 9000))).1.length,
       (marks e (evaluate 1700 .acquire false (noticeRig .all .all false true 9000))).2)) =
        [(2, some 2000, none), (2, some 2000, none), (3, some 2000, none)] := by
  decide +kernel

theorem witness_OriginApproach_settling :
    let settling := fun n : Nat => (originAt .settling).updOrg fun o => { o with settleCtr := n }
    let left := fun n : Nat => ((after .epochBoundary (settling n)).org.state, (after .epochBoundary (settling n)).org.settleCtr)
    [0, 1, 2, 255].map left = [(.aligned, 0), (.aligned, 0), (.settling, 1), (.settling, 254)] ∧
      (after .epochBoundary (settling 1)).org.aligned = true ∧
      (after .epochBoundary (originAt .syncing)).org = (originAt .syncing).org := by decide +kernel

theorem witness_OriginRequests_empty :
    let req := fun s : State =>
      match requestOf noPins 0x30 [] with
      | .ok c => after c s
      | .error _ => s
    req rig = answered .notRoot [] rig ∧ req (originAt .idle) = answered .badValue [] (originAt .idle) := by decide +kernel

/-- P1 with four PROBE cells of an earlier training still waiting. -/
def crowded (l : LinkState) : State :=
  (linkAt l).updPort 1 fun q => { q with timingQ := List.replicate 4 (.probe 12 1 7) }

/-- The training of P1 after two departures and after two boundaries: the earlier PROBE cells become outstanding no more, and an
attempt refused its first probes has none outstanding. -/
theorem test_earlierProbes :
    let s := after (.portDebounceExpiry 1) (crowded .settling)
    let goes := fun t : State => (after (.cellDeparture 1) t).updPort 1 fun q => { q with flight := none }
    let all := goes (goes (goes (goes (after .epochBoundary s))))
    (s.port 1).train.earlier = 4 ∧ ((goes s).port 1).train.earlier = 3 ∧ ((goes s).port 1).train.outstanding = none ∧
      ((after .epochBoundary s).port 1).timingRefused = 1 ∧ (all.port 1).train.earlier = 0 ∧
      ((goes (after .epochBoundary all)).port 1).train.outstanding = some (2, 0) ∧
      ((after (.portCtlRetrain 1) (crowded .training)).port 1).train.earlier = 4 := by decide +kernel

/-- The window of probe k stays open until k + 1 departs, though k + 2 is refused; a refused k + 1 closes it (R82). -/
theorem test_windowCloses :
    let at' := fun (count : Nat) (q : List TimingCell) => (linkAt .training).updPort 1 fun x =>
      { x with timingQ := q, train := { x.train with attempt := 1, probeCount := count, outstanding := some (3, 9) } }
    let echoes := List.replicate 3 (TimingCell.echo 12 7 1 1 0)
    let out := fun s : State => (s.port 1).train.outstanding
    out (after .epochBoundary (at' 4 (echoes ++ [.probe 12 1 4]))) = some (3, 9) ∧
      out (after .epochBoundary (at' 3 (echoes ++ [.marker]))) = none ∧
      out (after (.cellDeparture 1) (at' 4 [.probe 12 1 4])) = some (4, 0) ∧
      out (after (.cellDeparture 1) (at' 5 [.probe 12 1 4, .probe 12 1 5])) = some (4, 0) ∧
      out (after (.cellDeparture 1) (at' 5 [.probe 12 1 4])) = none := by decide +kernel

theorem witness_DamagedCellsCount_begun :
    let away : ArrivalPort := ⟨1, false⟩
    (after (.cellBadCrc away) (linkAt .active)) = linkAt .active ∧
      after (.markerReceived away (markerOf 0) 0) (servoAt .track) = servoAt .track ∧
      after (.resumeReceived away) (linkAt .quiesced) = linkAt .quiesced ∧
      after (.probeReceived ⟨1, true⟩ ⟨7, 1, 1, 0⟩ 0) (linkAt .settling) = linkAt .settling ∧
      ((after .epochBoundary ((linkAt .isolated).updPort 1 fun q => { q with score := 255 })).port 1).score = 254 ∧
      ((after .epochBoundary (linkAt .active)).port 1).score = 0 := by decide +kernel

/-- P1 in TRAINING after a number of probes, with round trips 4, 6, 8 and 10 and some more of 12. -/
def judging (count attempt more dmin : Nat) : State :=
  (linkAt .training).updPort 1 fun q => { q with
    score := 9
    train := { q.train with
      attempt := attempt, probeCount := count, dmin := dmin, responder := some 33, outstanding := some (count, 5)
      rts := #v[some 4, some 6, some 8, if more = 0 then none else some 10, none, none, none, none] } }

theorem witness_EchoesGiveDelay_boundary :
    let left := fun s : State => let q := (after .epochBoundary s).port 1; (q.link, q.train.attempt, q.train.probeCount, q.delay)
    left (judging 7 1 1 0) = (.training, 1, 8, 4650) ∧ left (judging 8 1 0 0) = (.training, 2, 0, 4650) ∧
      left (judging 8 2 0 0) = (.training, 3, 0, 4650) ∧ left (judging 8 3 0 0) = (.isolated, 3, 8, 4650) ∧
      left (judging 8 1 1 4) = (.active, 1, 8, 4) ∧ left (judging 8 1 1 5) = (.isolated, 1, 8, 4650) ∧
      ((after .epochBoundary (judging 8 3 0 0)).port 1).cause = .training ∧
      ((after .epochBoundary (judging 8 1 1 5)).port 1).cause = .delayRange ∧
      (let q := (after .epochBoundary (judging 8 1 1 4)).port 1; (q.peer, q.score)) = (33, 0) ∧
      ((after .epochBoundary (judging 7 1 1 0)).port 1).timingQ = [.probe 12 1 8] ∧
      ((after .epochBoundary (judging 7 1 1 0)).port 1).train.outstanding = some (7, 5) := by decide +kernel

theorem witness_DrainAndResume_boundary :
    let owing := fun (l : LinkState) (n : Nat) => (linkAt l).updPort 1 fun q => { q with
      quiesceOwed := true, resumeOwed := true, ctrlQ := List.replicate n (.cancel ⟨1, 0⟩) }
    let left := fun s : State => let q := (after .epochBoundary s).port 1; (q.ctrlQ.length, q.quiesceOwed, q.resumeOwed)
    rig.xmit.creditTimeout = 8 ∧ (∀ en, (rig.entry en).source ≠ .port 1) ∧
    [left (owing .draining 15), left (owing .draining 16), left (owing .training 15), left (owing .training 16),
        left (owing .active 3)] =
      [(16, false, false), (16, true, false), (16, false, false), (16, false, true), (3, false, false)] ∧
      ((after .epochBoundary (owing .draining 15)).port 1).ctrlQ.getLast? = some .quiesce ∧
      ((after .epochBoundary (owing .training 15)).port 1).ctrlQ.getLast? = some .resume := by decide +kernel

/-- With the credit timeout off, an owed QUIESCE goes before an owed CREDIT. An abandonment at the boundary may put a CREDIT
before it, or take its room. -/
theorem witness_DrainAndResume_first :
    let owing := fun (n timeout : Nat) => (after (.xmitCfg (some timeout) none) ((entryAt .lossless (.port 1) .running).updPort 1
      fun q => { q with link := .draining, quiesceOwed := true, ctrlQ := List.replicate n (.cancel ⟨1, 0⟩) })).updEntry 0 fun e =>
        { e with
          owedCredit := decide (timeout = 0), lastAdv := some 0, destPorts := 4, ring := [{ block 5 64 with pendPorts := 4 }]
          credit := e.credit.set 2 ⟨none, 7, 3⟩ }
    let left := fun s : State => let q := (after .epochBoundary s).port 1; (q.ctrlQ.drop 13, q.quiesceOwed)
    [left (owing 14 0), left (owing 14 8), left (owing 15 8)] =
      [([.cancel ⟨1, 0⟩, .quiesce, .credit 0], false), ([.cancel ⟨1, 0⟩, .credit 0, .quiesce], false),
        ([.cancel ⟨1, 0⟩, .cancel ⟨1, 0⟩, .credit 0], true)] := by decide +kernel

/-- P1 in a link state with timing and control cells waiting, entry 0 a LOSSLESS receiver on it. -/
def sender (l : LinkState) (tq : List TimingCell) (cq : List ControlCell) : State :=
  ((entryAt .lossless (.port 1) .running).updPort 1 fun q => { q with link := l, timingQ := tq, ctrlQ := cq }).updTrg fun u =>
    { u with
      queue := [{ trig 9 5000 with pendPorts := 6, owedPorts := 2 }]
      history := [{ done 3 .tombstone with forward := some { cell := .inr ⟨3, 0⟩, pendPorts := 3, owedPorts := 0 } }] }

/-- The cell that P1 starts, and the entry it names. -/
def starts (s : State) : Option (Cell × Option EntryId × Bool) :=
  ((after (.cellDeparture 1) s).port 1).flight.map fun f => (f.cell, f.entry, f.stale)

theorem witness_DepartureTakesClassOrder_timing :
    let echo := TimingCell.echo 12 7 2 5 33
    let s := fun (l : LinkState) (q : List TimingCell) => (sender l q [.resume]).updTb fun t => { t with reading := 77 }
    starts (s .training [echo, .marker]) = some (.echo ⟨12, 7, 2, 5, 33, 77⟩, none, false) ∧
      starts (s .quiesced [.probe 12 1 4]) = some (.probe ⟨12, 1, 4, 77⟩, none, false) ∧
      starts (s .training []) = some (.resume, none, false) ∧ starts (s .quiesced []) = none ∧
      starts (s .lost [.marker]) = none ∧ starts (s .isolated [.marker]) = none ∧
      after (.cellDeparture 1) (s .quiesced []) = s .quiesced [] ∧
      after (.cellDeparture 1) (s .waiting [.marker]) = s .waiting [.marker] ∧
      ((after (.cellDeparture 1) (s .quiesced [.probe 12 1 4])).port 1).train = ((s .quiesced []).port 1).train := by
  decide +kernel

theorem witness_DepartureTakesClassOrder_control :
    let s := fun c : ControlCell => sender .draining [] [c, .resume]
    [.credit 0, .query 0, .quiesce, .resume, .trigger ⟨9, 5000, 4, 7⟩, .cancel ⟨3, 0⟩].map (fun c => starts (s c)) =
      [some (.credit ⟨301, 1⟩, some 0, false), some (.query 301, some 0, false), some (.quiesce, none, false),
        some (.resume, none, false), some (.trigger ⟨9, 5000, 4, 7⟩, none, false), some (.cancel ⟨3, 0⟩, none, false)] := by
  decide +kernel

theorem witness_DepartureTakesClassOrder_report :
    let t := fun c : ControlCell => after (.cellDeparture 1) (sender .draining [] [c, .resume])
    ((t (.credit 0)).entry 0).lastAdv = some 1 ∧ (t (.query 0)).entries = (sender .draining [] []).entries ∧
      (t (.trigger ⟨9, 5000, 4, 7⟩)).trg.queue.map (fun x => (x.pendPorts, x.owedPorts)) = [(4, 0)] ∧
      (t (.cancel ⟨3, 0⟩)).trg.history.map (fun r => r.forward.map (·.pendPorts)) = [some 1] ∧
      (t (.cancel ⟨8, 0⟩)).trg = (sender .draining [] []).trg ∧ ((t .quiesce).port 1).ctrlQ = [.resume] := by decide +kernel

theorem witness_ArbiterAndCompletion_order :
    let at' := fun (a b : Nat) => arbiterRig.updPort 1 fun q => { q with level1 := a, level2 := b }
    [arbiterGrant (at' 9 12) 1, arbiterGrant (at' 32 5) 1, arbiterGrant (at' 1 31) 1, arbiterGrant (at' 2 31) 1,
        arbiterGrant (at' 10 4) 1] =
      [some (5, 32, 5), some (2, 2, 5), some (2, 2, 31), some (9, 9, 31), some (5, 32, 5)] ∧
      arbiterGrant (arbiterRig.updEntry 2 fun e => { e with mode := .lossless }) 1 = some (9, 9, 31) ∧
      arbiterGrant (arbiterRig.updEntry 2 fun e => { e with
        mode := .lossless, credit := e.credit.set 1 ⟨some 0, 0, 0⟩ }) 1 = some (2, 2, 31) ∧
      arbiterGrant (arbiterRig.updEntry 2 fun e => { e with
        mode := .lossless, credit := e.credit.set 1 ⟨some (-1), 0, 0⟩ }) 1 = some (9, 9, 31) := by decide +kernel

/-- Entry 0 a LOSSLESS sender to P1 whose oldest block lies beyond its credit, with counts of its record. -/
def blockedRig (timeouts queries : Nat) (limit : Option Seq) : State :=
  (entryAt .lossless (.slot 0) .running).updEntry 0 fun e =>
    { e with ring := [block 5 64], credit := e.credit.set 1 ⟨limit, timeouts, queries⟩ }

theorem witness_CreditsAndQueries_timeout :
    let left := fun s : State => ((after .epochBoundary s).entry 0).credit[1]
    let queue := fun s : State => ((after .epochBoundary s).port 1).ctrlQ
    left (blockedRig 6 0 none) = ⟨none, 7, 0⟩ ∧ left (blockedRig 6 0 (some 4)) = ⟨some 4, 7, 0⟩ ∧
      left (blockedRig 6 0 (some 5)) = ⟨some 5, 0, 0⟩ ∧ left (blockedRig 7 0 none) = ⟨none, 0, 1⟩ ∧
      queue (blockedRig 7 0 none) = [.query 0] ∧ left (blockedRig 7 2 (some 4)) = ⟨some 4, 0, 3⟩ ∧
      left (blockedRig 7 3 (some 4)) = ⟨none, 0, 0⟩ ∧ queue (blockedRig 7 3 (some 4)) = [] ∧
      ((after .epochBoundary (blockedRig 7 3 none)).entry 0).abandonedPorts = 2 ∧
      ((after .epochBoundary (blockedRig 7 3 none)).entry 0).ring = [] ∧
      left (after (.xmitCfg (some 0) none) (blockedRig 255 0 none)) = ⟨none, 255, 0⟩ ∧
      left (after (.xmitCfg none (some 0)) (blockedRig 255 15 none)) = ⟨none, 0, 15⟩ ∧
      queue ((blockedRig 7 0 none).updPort 1 fun q => { q with ctrlQ := [.query 0] }) = [.query 0] := by decide +kernel

/-- The state after the command that a request's kind and body spell. -/
def asks (kind : Byte) (body : List Byte) (s : State) : State :=
  match requestOf noPins kind body with
  | .ok c => after c s
  | .error _ => s

/-- A body that does not fit its layout is refused where the owner's own order puts it (R130, R149, R151, R197). -/
theorem witness_unfitBodies :
    let s := heldAt .running
    let status := fun (k : Byte) (b : List Byte) (t : State) => (asks k b t).mgmt.answer.map (·.status)
    status 0x50 [31] s = some .badValue ∧ status 0x50 [0] s = some .busy ∧ status 0x50 [32] s = some .badValue ∧
      status 0x50 (31 :: List.replicate 17 1) s = some .badValue ∧
      status 0x54 [0, 1, 2, 3] s = some .badValue ∧ status 0x54 [1] s = some .noEntry ∧
      status 0x54 [0] (heldAt .closing) = some .state ∧ status 0x54 [32] s = some .badValue ∧
      status 0x55 [0, 1, 0, 2, 0, 0] s = some .badValue ∧ status 0x55 [1, 1] s = some .noEntry ∧
      status 0x55 [0] (heldAt .closing) = some .state := by decide +kernel

/-- Entry 0 with its open block at an age, and a hold at a count. -/
def agedRig (age : Nat) : State :=
  (entryAt .live (.slot 0) .running).updEntry 0 fun e =>
    { e with ring := [{ block 0 64 with isOpen := true, age := age, pendPorts := 0, len := 4 }] }

def stuckRig (count : Nat) : State :=
  (after (.xmitCfg (some 0) none) (entryAt .lossless (.slot 0) .running)).updEntry 0 fun e =>
    { e with ring := [block 0 64, block 1 65], hold := true, holdCount := count, credit := e.credit.set 1 ⟨none, 0, 0⟩ }

theorem witness_StrmStopAndClose_boundary :
    let left := fun s : State => (after .epochBoundary s).entry 0
    let shut := left (agedRig 1)
    let drain := fun (n : Nat) => (heldAt .closing).updEntry 0 fun e => { e with drainCount := n }
    (left (agedRig 0)).ring.map (fun b => (b.isOpen, b.age)) = [(true, 1)] ∧
      shut.ring.map (fun b => (b.isOpen, b.age, b.short, b.pendPorts)) = [(false, 2, true, 2)] ∧
      (left (stuckRig 2)).holdCount = 3 ∧ (left (stuckRig 2)).state = .running ∧ (left (stuckRig 3)).state = .stalled ∧
      (left (stuckRig 3)).hold = false ∧ ((stuckRig 3).entry 0).holdLimit = 4 ∧
      ((left (drain 14)).state, (left (drain 14)).drainCount) = (.closing, 15) ∧
      (left (drain 15)).state = .closed ∧ (left (drain 15)).counters.flushed = 1 ∧ (left (drain 255)).ring = [] := by
  decide +kernel

/-- Entry 0's open block one sample short of its payload, and a full ring of a LIVE entry. -/
theorem witness_SourceInstantsTakeSamples_edges :
    let s := entryAt .live (.slot 0) .running
    let nearly := s.updEntry 0 fun e => { e with ring := [{ block 0 64 with isOpen := true, pendPorts := 0, len := 14 }] }
    let filled := after (.sampleInstant 0 true 7) nearly
    let full := s.updEntry 0 fun e => { e with ring := [block 5 64, block 6 65], nextSeq := 7 }
    let skips := after (.sampleInstant 0 true 7) full
    (filled.entry 0).ring.map (fun b => (b.len, b.isOpen, b.short, b.pendPorts)) = [(16, false, false, 2)] ∧
      Memory.readBytes filled.buffer (64 * 512 + 14) 2 = [0, 7] ∧
      (skips.entry 0).ring.map (fun b => (b.seq, b.isOpen, b.disc)) = [(6, false, false), (7, true, true)] ∧
      (skips.entry 0).counters.skipped = 1 ∧ takerPorts full (full.entry 0) = 2 := by decide +kernel

/-- S0 the source of entry 0, with its open block, and the sink of entry 1, with a block it has begun. -/
def loopRig : State :=
  let s := entryAt .live (.slot 0) .running
  let s := s.updEntry 0 fun e => { e with ring := [{ block 0 64 with isOpen := true, pendPorts := 0, len := 4 }] }
  (s.updEntry 1 fun e => { e with
      state := .running, opened := true, rackId := 302, source := .port 1, destSlots := 1, payload := 16, width := 2
      interval := 1000, base := 70, len := 2, ring := [{ block 3 70 with pendPorts := 0, pendSlots := 1 }] }).updSlot 0
    fun q => { q with presenting := some (3, 6) }

theorem witness_SourceInstantsTakeSamples_both :
    let t := after (.sampleInstant 0 true 7) loopRig
    sourceEntry loopRig 0 = some 0 ∧ sinkEntry loopRig 0 = some 1 ∧ bufferCanonical loopRig ∧
      (t.entry 0).ring.map (·.len) = [6] ∧ t.entry 1 = loopRig.entry 1 ∧ (t.slot 0).presenting = some (3, 7) ∧
      (t.slot 0).counters.samplesOut = 1 ∧ (t.slot 0).counters.validReads = 1 := by
  refine ⟨by decide +kernel, by decide +kernel, rfl, ?_⟩
  decide +kernel

theorem witness_SlotClockIsStaged_strobe :
    let q := fun (m : StrobeMode) (v : Presence) (b : Bool) =>
      (after .epochBoundary (rig.updSlot 5 fun q => { q with
        presence := v, cfg := { q.cfg with strobe := m }, strobePulse := b })).slot 5
    let left := fun (m : StrobeMode) (v : Presence) (b : Bool) => ((q m v b).strobePulse, (q m v b).counters.strobePulses)
    [left .epoch .present false, left .epochAndBlock .present false, left .epoch .present true, left .off .present false,
        left .epoch .settling false] = [(true, 1), (true, 1), (true, 0), (false, 0), (false, 0)] := by decide +kernel

/-- P0 and P1 ACTIVE at tick 5,000, with S2 subscribed to line 2; the late window is 1,250 ticks. -/
def lateRig : State :=
  (((linkAt .active).updPort 0 fun q => { q with link := .active }).updTb fun t =>
    { t with reading := atTick 5000 }).updSlot 2 fun q => { q with presence := .present, cfg := { q.cfg with subscription := 4 } }

/-- After the TRIGGER 900 on P1 for a fire time. -/
def taken (x : Tick) : State := after (.triggerReceived ⟨1, true⟩ ⟨900, x, 4, 3⟩) lateRig

theorem witness_TriggersAreTaken_late :
    ([5000, 4999, 3750, 3749].map fun x : Tick => ((taken x).trg.fired, (taken x).trg.lateFired, (taken x).trg.stale)) =
        [(1, 0, 0), (0, 1, 0), (0, 1, 0), (0, 0, 1)] ∧
      ([5000, 3750, 3749].map fun x : Tick =>
        (taken x).mgmt.notices.map fun n => (n.kind, n.subject.toNat, n.detail, n.extra.toNat)) =
        [[(.triggerFired, 900, 4, 0)], [(.triggerLate, 900, 1250, 4)], [(.triggerStale, 900, 1251, 1)]] := by decide +kernel

theorem witness_TriggersAreTaken_forward :
    ((taken 3750).slot 2).trigPulse = true ∧ (taken 3749).ports = lateRig.ports ∧
      (taken 3749).trg.history = [done 900 .stale] ∧
      (taken 3750).trg.history =
        [{ done 900 .firedByJudgement with forward := some ⟨.inl ⟨900, 3750, 4, 2⟩, 1, 0⟩ }] ∧
      ((taken 3750).port 0).ctrlQ = [.trigger ⟨900, 3750, 4, 2⟩] := by decide +kernel

/-- The root with three queued triggers, moved so that the first is stale, the second late and the third still ahead. -/
def judgeRig : State :=
  ((originAt .idle).updTb fun t => { t with reading := atTick 1000 }).updTrg fun u => { u with
    queue := [{ trig 1 2000 with pendPorts := 2, owedPorts := 2 }, { trig 2 3000 with pendPorts := 2, owedPorts := 2 },
      { trig 3 9000 with pendPorts := 2 }] }

theorem witness_TriggersFireAndCancel_step :
    let t := after (.tbOffset 3250) judgeRig
    let late := fun n : Int => (after (.tbOffset n) judgeRig).trg.history.map (fun r => (r.id.toNat, r.kind))
    t.trg.queue.map (·.id) = [3] ∧
      t.trg.history.map (fun r => (r.id.toNat, r.kind, r.forward.map fun f => (f.pendPorts, f.owedPorts))) =
        [(1, .stale, none), (2, .firedByJudgement, some (2, 2))] ∧
      late 2250 = [(1, .firedByJudgement), (2, .firedByJudgement)] ∧ late 999 = [] ∧ late 1000 = [(1, .firedByJudgement)] ∧
      triggerIdsDistinct judgeRig := by
  refine ⟨by decide +kernel, by decide +kernel, by decide +kernel, by decide +kernel, by decide +kernel, ?_⟩
  unfold triggerIdsDistinct
  decide +kernel

/-- An ACTIVE port owed the cells of two queued triggers and of two records. -/
theorem witness_TriggersFireAndCancel_owed :
    let s := fun n : Nat => ((linkAt .active).updPort 1 fun q => { q with ctrlQ := List.replicate n .quiesce }).updTrg fun u =>
      { u with
        queue := [{ trig 1 2000 with pendPorts := 2, owedPorts := 2 }, trig 2 2500, { trig 3 3000 with owedPorts := 3 }]
        history := [{ done 7 .tombstone with forward := some ⟨.inr ⟨7, 2⟩, 2, 2⟩ }, done 8 .fired,
          { done 9 .firedByJudgement with forward := some ⟨.inl ⟨9, 5, 4, 1⟩, 6, 6⟩ }] }
    let t := fun n : Nat => after .epochBoundary (s n)
    ((t 12).port 1).ctrlQ = List.replicate 12 .quiesce ++ [.trigger ⟨1, 2000, 4, 7⟩, .trigger ⟨3, 3000, 4, 7⟩,
        .cancel ⟨7, 2⟩, .trigger ⟨9, 5, 4, 1⟩] ∧
      (t 12).trg.queue.map (·.owedPorts) = [0, 0, 1] ∧
      (t 12).trg.history.map (fun r => r.forward.map (·.owedPorts)) = [some 0, none, some 4] ∧
      ((t 13).port 1).ctrlQ.length = 16 := by decide +kernel

/-- A fire time that the advance has passed stays first when a later one joins the queue (R173). -/
theorem test_passedStaysFirst :
    let s := (trigRig.updTrg fun u => { u with queue := [trig 1 4999, trig 2 5002], history := [] }).updTb fun t =>
      { t with advFrom := 4998, reading := atTick 5000 }
    (after (.trgSched 5001 4 (some 0)) s).trg.queue.map (·.fireTime) = [4999, 5001, 5002] := by decide +kernel

/-- A sample instant of the boundary's own tick may come before it, but not on a slot whose clock is staged (R138, R160). -/
theorem test_instantBeforeBoundary :
    let s := clockRig.updTb fun t => { t with dueBoundary := true, dueSample := 0x0C }
    occurs (.sampleInstant 2 true 0) s = true ∧ occurs (.sampleInstant 3 true 0) s = false ∧
      occurs (.sampleInstant 3 true 0) (s.updTb fun t => { t with dueBoundary := false }) = true ∧
      occurs (.sampleInstant 4 true 0) s = false := by decide +kernel

/-- The model's choices about a tick whose boundary is still to be taken: an instant already taken may be followed by one of a
clock staged after it (log 70), and a step leaves a staged clock without an instant of that tick (log 69). -/
theorem test_stagedClockAtBoundary :
    let due := fun s : State => (after .epochBoundary s).tb.dueSample
    let s := (rig.updSlot 3 fun q => { q with divider := 1000 }).updTb fun t =>
      { t with advFrom := 124999, reading := atTick 125000, dueBoundary := true, dueSample := 8 }
    let staged := after (.slotClk { slot := 3, divider := some 2500 }) (after (.sampleInstant 3 true 0) s)
    (after (.sampleInstant 3 true 0) s).tb.dueSample = 0 ∧ due (after (.sampleInstant 3 true 0) s) = 0 ∧ due staged = 8 ∧
      due (stepBy .offset (atTick 125000) staged) = 0 ∧ due (stepBy .offset (atTick 125000) s) = 8 := by decide +kernel

/-- A count of refused offers at its greatest value wraps to 0 (log 66). -/
theorem test_refusedCountWraps :
    let s := (linkAt .active).updPort 1 fun q => { q with timingQ := List.replicate 4 (.probe 12 1 1), timingRefused := -1 }
    ((offerTiming 1 (.probe 12 1 2) s).port 1).timingRefused = 0 ∧
      ((emptyQueues 1 (s.updPort 1 fun q => { q with
        flight := some ⟨.quiesce, none, false⟩, abandoned := -1 })).port 1).abandoned = 0 := by decide +kernel

/-- An abandonment that brings a STALLED entry back to RUNNING raises STREAM_RESUMED before DEST_ABANDONED (R118, log 67). -/
theorem test_abandonmentNotices :
    let s := (blockedRig 7 3 none).updEntry 0 fun e => { e with state := .stalled, ring := [block 5 64, block 6 65] }
    (after .epochBoundary s).mgmt.notices.map (fun n => (n.kind, n.extra.toNat)) =
      [(.streamResumed, 0), (.destAbandoned, 2)] := by decide +kernel

/-- `hub.reset` TRAFFIC closes an open block, and that close pulses the strobe of its source slot (R136, R166, log 68). -/
theorem test_trafficCloseStrobes :
    let s := (agedRig 0).updSlot 0 fun q => { q with cfg := { q.cfg with strobe := .epochAndBlock } }
    let n := fun s : State => (((after .hubResetTraffic s).slot 0).strobePulse, ((after .hubResetTraffic s).slot 0).counters.strobePulses)
    n s = (true, 1) ∧ n (s.updSlot 0 fun q => { q with cfg := { q.cfg with strobe := .epoch } }) = (false, 0) := by
  decide +kernel

theorem witness_SpiTransactions_bodies :
    let answer := fun bytes : List Byte => (after (.requestFrameWrite bytes) rig).mgmt.answer
    answer [0x30, 5, 0] = none ∧ answer [0x50, 5, 0] = some ⟨.badValue, []⟩ ∧ answer [0x50, 5, 1, 9] = none ∧
      answer [0x54, 5, 0] = some ⟨.badValue, []⟩ ∧ answer [0x55, 5, 2, 9, 9] = none ∧ answer [0x51, 5, 1, 9] = none ∧
      answer [0x52, 5, 0] = some ⟨.badValue, []⟩ ∧ answer [0x53, 5, 2, 0, 0] = some ⟨.badValue, []⟩ := by decide +kernel

theorem witness_ReadoutsReply_fields :
    let q := (stuckRig 0).port 1
    let waits := fun n : Nat => ((portStatBody { q with signalWait := some n }).drop 41).take 3
    (waits 125000000, waits 0) = ([1, 0x03, 0xE8], [1, 0, 0]) ∧ ((portStatBody q).drop 41).take 3 = [0xFF, 0, 0] ∧
      ((stuckRig 0).entry 0).opened = true ∧ strmStatBody rig (rig.entry 31) = List.replicate 160 0 ∧
      ((slotStatBody (rig.updSlot 7 fun q => { q with debounce := some 2500000 }) 7 true).drop 1).take 3 = [2, 1, 20] ∧
      ((tbStatBody rootRig).drop 39).take 1 = [0] ∧
      ((tbStatBody (rootRig.updOrg fun o => { o with aligned := true })).drop 39).take 1 = [1] := by decide +kernel

end Sys2Proof.Machine
end

section
/-! Reference selection at an epoch boundary (R22 to R24): what the work before the selection leaves of the fields it reads,
what the selection gives, and that no work after it moves the reference. -/
namespace Sys2Proof.Machine

/-! ### Updates of one port -/

/-- What an update keeps of the port it names, it keeps of every port. -/
theorem State.updPort_port_keeps {α : Type} (g : Port → α) {f : Port → Port} (h : ∀ q, g (f q) = g q) (p x : PortId)
    (s : State) : g ((s.updPort p f).port x) = g (s.port x) := by
  by_cases e : x = p
  · subst e
    rw [State.updPort_port, h]
  · rw [State.updPort_port_ne e]

/-- An update of each port in turn updates every port once. -/
theorem forPorts_updPort_port (f : Port → Port) (x : PortId) (s : State) :
    (forPorts (fun p => State.updPort p f) s).port x = f (s.port x) := by
  fin_cases x <;> simp [forPorts, allPorts, State.updPort_port_ne]

/-- The ports are read from the table of ports alone. -/
theorem State.port_congr {s t : State} (h : t.ports = s.ports) (p : PortId) : t.port p = s.port p := by
  rw [State.port, State.port, h]

/-! ### The frame number, which no notice moves -/

@[simp] theorem raiseNotice_mgmt_frame (k : NoticeKind) (n : Nat) (d x : Int) (s : State) :
    (raiseNotice k n d x s).mgmt.frame = s.mgmt.frame := by
  simp only [raiseNotice]
  (repeat' split) <;> simp

@[simp] theorem dropQual_mgmt_frame (c : QualCause) (n : QualName) (s : State) :
    (dropQual c n s).mgmt.frame = s.mgmt.frame := by
  simp only [dropQual, qualNotice]
  split <;> simp

@[simp] theorem windowsLimit_mgmt_frame (s : State) : (windowsLimit s).mgmt.frame = s.mgmt.frame := by
  simp [windowsLimit, dropQuals]

/-! ### The boundary's work before the selection -/

/-- A staged E moves nothing of the ports, the frame number, the role and the reference with its mode. -/
@[simp] theorem applyEpoch_frame (s : State) :
    (applyEpoch s).ports = s.ports ∧ (applyEpoch s).mgmt.frame = s.mgmt.frame ∧ (applyEpoch s).tb.role = s.tb.role ∧
    (applyEpoch s).tb.ref = s.tb.ref ∧ (applyEpoch s).tb.refMode = s.tb.refMode ∧
    (applyEpoch s).tb.chosen = s.tb.chosen := by
  simp only [applyEpoch]
  split <;> simp

/-- The offers of MARKER move nothing but the ports. -/
@[simp] theorem offerMarkers_frame (s : State) : (offerMarkers s).tb = s.tb ∧ (offerMarkers s).mgmt = s.mgmt := by
  unfold offerMarkers
  and_intros <;> exact forPorts_keeps _ (by intro p s; split <;> simp) _

/-- The offer of a MARKER moves nothing of a port but its timing queue and two counts. -/
theorem offerMarker_port_keeps {α : Type} (g : Port → α)
    (h : ∀ (q : Port) (cs : List TimingCell) (m n : Ctr),
      g { q with timingQ := cs, markerReplaced := m, timingRefused := n } = g q)
    (p x : PortId) (s : State) : g ((offerMarker p s).port x) = g (s.port x) := by
  simp only [offerMarker, offerTiming]
  (repeat' split) <;> exact State.updPort_port_keeps g (fun q => h q _ _ _) p x s

/-- The offers of MARKER move nothing of a port that the selection reads. -/
@[simp] theorem offerMarkers_port (p : PortId) (s : State) :
    ((offerMarkers s).port p).link = (s.port p).link ∧ ((offerMarkers s).port p).mismatch = (s.port p).mismatch ∧
    ((offerMarkers s).port p).peer = (s.port p).peer ∧ ((offerMarkers s).port p).marker = (s.port p).marker := by
  have keeps : ∀ {α : Type} (g : Port → α),
      (∀ (q : Port) (cs : List TimingCell) (m n : Ctr),
        g { q with timingQ := cs, markerReplaced := m, timingRefused := n } = g q) →
      g ((offerMarkers s).port p) = g (s.port p) := by
    intro α g h
    refine forPorts_keeps (fun s => g (s.port p)) (fun x s => ?_) s
    split
    · exact offerMarker_port_keeps g h x p s
    · rfl
  exact ⟨keeps (·.link) fun _ _ _ _ => rfl, keeps (·.mismatch) fun _ _ _ _ => rfl, keeps (·.peer) fun _ _ _ _ => rfl,
    keeps (·.marker) fun _ _ _ _ => rfl⟩

/-- A last-marker record one boundary older (R7). -/
def MarkerRecord.older (m : MarkerRecord) : MarkerRecord := { m with age := satInc 255 m.age }

@[simp] theorem MarkerRecord.older_frame (m : MarkerRecord) :
    m.older.hop = m.hop ∧ m.older.grade = m.grade ∧ m.older.upstream = m.upstream := ⟨rfl, rfl, rfl⟩

/-- The marker ages are all that the ageing moves. -/
@[simp] theorem ageMarkers_port (p : PortId) (s : State) :
    (ageMarkers s).port p = { s.port p with marker := (s.port p).marker.map MarkerRecord.older } :=
  forPorts_updPort_port _ p s

@[simp] theorem ageMarkers_frame (s : State) : (ageMarkers s).tb = s.tb ∧ (ageMarkers s).mgmt = s.mgmt := by
  unfold ageMarkers
  and_intros <;> exact forPorts_keeps _ (by intro p s; simp) _

/-- The holdover count moves nothing of the ports, the frame number, the role and the reference with its mode. -/
@[simp] theorem countHoldover_frame (s : State) :
    (countHoldover s).ports = s.ports ∧ (countHoldover s).mgmt.frame = s.mgmt.frame ∧
    (countHoldover s).tb.role = s.tb.role ∧ (countHoldover s).tb.ref = s.tb.ref ∧
    (countHoldover s).tb.refMode = s.tb.refMode ∧ (countHoldover s).tb.chosen = s.tb.chosen := by
  simp only [countHoldover]
  (repeat' split) <;> simp

/-- The state over which a boundary's selection judges the ports: the boundary's work before the selection is done (R2). -/
def beforeSelection (s : State) : State :=
  countHoldover (ageMarkers (offerMarkers ((applyEpoch s).updTb fun t => { t with gain := t.nextGain })))

theorem timebaseBoundary_eq (s : State) :
    timebaseBoundary s =
      if (beforeSelection s).tb.role = .member then refChange (selectReference (beforeSelection s)) (beforeSelection s)
      else beforeSelection s := by
  delta timebaseBoundary beforeSelection
  rfl

/-- The work before the selection leaves the frame number, the role and the reference with its mode. -/
@[simp] theorem beforeSelection_frame (s : State) :
    (beforeSelection s).mgmt.frame = s.mgmt.frame ∧ (beforeSelection s).tb.role = s.tb.role ∧
    (beforeSelection s).tb.ref = s.tb.ref ∧ (beforeSelection s).tb.refMode = s.tb.refMode ∧
    (beforeSelection s).tb.chosen = s.tb.chosen := by
  simp [beforeSelection]

/-- Of what the selection reads of a port, the work before it moves the marker's age alone. -/
@[simp] theorem beforeSelection_port (p : PortId) (s : State) :
    ((beforeSelection s).port p).link = (s.port p).link ∧
    ((beforeSelection s).port p).mismatch = (s.port p).mismatch ∧
    ((beforeSelection s).port p).peer = (s.port p).peer ∧
    ((beforeSelection s).port p).marker = (s.port p).marker.map MarkerRecord.older := by
  have hcount (u : State) : (countHoldover u).port p = u.port p := State.port_congr (countHoldover_frame u).1 p
  have hepoch : (applyEpoch s).port p = s.port p := State.port_congr (applyEpoch_frame s).1 p
  simp [beforeSelection, hcount, hepoch]

/-! ### Eligibility and rank (R22, R23) -/

theorem eligible_iff (frame : Nat) (q : Port) :
    eligible frame q = true ↔ q.link = .active ∧ q.mismatch = false ∧
      ∃ m, q.marker = some m ∧ m.age ≤ 2 ∧ m.grade = true ∧ m.hop ≤ 30 ∧ m.upstream ≠ frame := by
  cases h : q.marker <;> simp [eligible, h, and_assoc]

/-- A record is no older than 2 after a boundary iff its age was below 2 before it: the age stops at 255 only (R7). -/
theorem older_age_le_two (m : MarkerRecord) : m.older.age ≤ 2 ↔ m.age + 1 ≤ 2 := by
  simp only [MarkerRecord.older, satInc]
  split <;> omega

/-- Eligibility at a boundary, over the records as they stood before their ages were raised (R22). -/
theorem eligible_beforeSelection (p : PortId) (s : State) :
    eligible (beforeSelection s).mgmt.frame ((beforeSelection s).port p) = true ↔
      (s.port p).link = .active ∧ (s.port p).mismatch = false ∧
      ∃ m, (s.port p).marker = some m ∧ m.age + 1 ≤ 2 ∧ m.grade = true ∧ m.hop ≤ 30 ∧ m.upstream ≠ s.mgmt.frame := by
  obtain ⟨hlink, hmis, -, hmarker⟩ := beforeSelection_port p s
  rw [eligible_iff, hlink, hmis, hmarker, (beforeSelection_frame s).1]
  cases (s.port p).marker with
  | none => simp
  | some m => simp [older_age_le_two]

/-- Ageing keeps the hop counts. -/
theorem markerHop_beforeSelection (p : PortId) (s : State) :
    markerHop ((beforeSelection s).port p) = markerHop (s.port p) := by
  obtain ⟨-, -, -, hmarker⟩ := beforeSelection_port p s
  rw [markerHop, markerHop, hmarker, Option.map_map]
  rfl

/-- The rank of a port as a reference: by hop count, peer frame and port number, the least the best (R23). -/
def portRank (s : State) (p : PortId) : Lex (Nat × Lex (Nat × PortId)) :=
  toLex (markerHop (s.port p), toLex ((s.port p).peer, p))

theorem portRank_le_iff (s : State) (a b : PortId) :
    portRank s a ≤ portRank s b ↔
      markerHop (s.port a) < markerHop (s.port b) ∨ (markerHop (s.port a) = markerHop (s.port b) ∧
        ((s.port a).peer < (s.port b).peer ∨ ((s.port a).peer = (s.port b).peer ∧ a ≤ b))) := by
  simp [portRank, Prod.Lex.le_iff]

/-- No two ports have one rank. -/
theorem portRank_injective (s : State) : Function.Injective (portRank s) := by
  intro a b h
  simp only [portRank, toLex_inj, Prod.mk.injEq] at h
  exact h.2.2

theorem portRank_beforeSelection (s : State) : portRank (beforeSelection s) = portRank s := by
  funext p
  obtain ⟨-, -, hpeer, -⟩ := beforeSelection_port p s
  rw [portRank, portRank, markerHop_beforeSelection, hpeer]

/-- Against a port of a higher number, `betterPort` compares the ranks. -/
theorem betterPort_iff (s : State) {a b : PortId} (h : a < b) :
    betterPort (s.port a) (s.port b) = true ↔ portRank s a ≤ portRank s b := by
  rw [portRank_le_iff]
  simp [betterPort, h.le, le_iff_lt_or_eq]

/-! ### The best port of a list (R23) -/

theorem bestPort_eq_none_iff (s : State) (l : List PortId) : bestPort s l = none ↔ l = [] := by
  cases l with
  | nil => simp [bestPort]
  | cons p ps =>
    simp only [bestPort]
    (repeat' split) <;> simp

/-- The best port of an ascending list is in it, and no port of the list ranks before it. -/
theorem bestPort_least (s : State) {l : List PortId} (asc : l.Pairwise (· < ·)) {b : PortId}
    (hb : bestPort s l = some b) : b ∈ l ∧ ∀ a ∈ l, portRank s b ≤ portRank s a := by
  induction l generalizing b with
  | nil => simp [bestPort] at hb
  | cons p ps ih =>
    obtain ⟨below, asc⟩ := List.pairwise_cons.mp asc
    cases hps : bestPort s ps with
    | none =>
      obtain rfl := (bestPort_eq_none_iff s ps).mp hps
      obtain rfl : p = b := by simpa [bestPort] using hb
      simp
    | some c =>
      obtain ⟨hc, least⟩ := ih asc hps
      have compares := betterPort_iff s (below c hc)
      simp only [bestPort, hps] at hb
      split at hb
      case isTrue better =>
        obtain rfl := Option.some.inj hb
        refine ⟨List.mem_cons_self, List.forall_mem_cons.mpr ⟨le_rfl, fun a ha => ?_⟩⟩
        exact (compares.mp better).trans (least a ha)
      case isFalse worse =>
        obtain rfl := Option.some.inj hb
        refine ⟨List.mem_cons_of_mem _ hc, List.forall_mem_cons.mpr ⟨?_, least⟩⟩
        exact (le_total _ _).resolve_right (mt compares.mpr worse)

/-! ### What the selection gives (R23, R24) -/

/-- Whether a port is eligible in the state it is judged in. -/
abbrev State.eligiblePort (s : State) (p : PortId) : Prop := eligible s.mgmt.frame (s.port p) = true

/-- The best of the eligible ports, that AUTO takes where it does not keep the reference. -/
def State.bestEligible (s : State) : Option PortId :=
  bestPort s (allPorts.filter fun p => eligible s.mgmt.frame (s.port p))

theorem mem_eligiblePorts (s : State) (p : PortId) :
    p ∈ allPorts.filter (fun p => eligible s.mgmt.frame (s.port p)) ↔ s.eligiblePort p := by
  have : p ∈ allPorts := by fin_cases p <;> decide
  simp [this]

theorem bestEligible_eq_none {s : State} (h : ∀ p, ¬s.eligiblePort p) : s.bestEligible = none :=
  (bestPort_eq_none_iff s _).mpr (List.filter_eq_nil_iff.mpr fun p _ => h p)

/-- The best eligible port is eligible, and no eligible port ranks before it. -/
theorem bestEligible_least {s : State} {b : PortId} (h : s.bestEligible = some b) :
    s.eligiblePort b ∧ ∀ a, s.eligiblePort a → portRank s b ≤ portRank s a := by
  have asc : allPorts.Pairwise (· < ·) := by decide
  obtain ⟨hb, least⟩ := bestPort_least s (asc.filter _) h
  exact ⟨(mem_eligiblePorts s b).mp hb, fun a ha => least a ((mem_eligiblePorts s a).mpr ha)⟩

/-- Where a port is eligible, one of them is the best. -/
theorem exists_bestEligible {s : State} {p : PortId} (h : s.eligiblePort p) : ∃ b, s.bestEligible = some b := by
  refine Option.ne_none_iff_exists'.mp fun none => ?_
  have empty := (bestPort_eq_none_iff s _).mp none
  simpa [empty] using (mem_eligiblePorts s p).mpr h

/-- The eligible port that ranks before every other is the best. -/
theorem bestEligible_eq_some {s : State} {b : PortId} (hb : s.eligiblePort b)
    (least : ∀ a, s.eligiblePort a → portRank s b ≤ portRank s a) : s.bestEligible = some b := by
  obtain ⟨c, hc⟩ := exists_bestEligible hb
  obtain ⟨okc, leastc⟩ := bestEligible_least hc
  rw [hc, portRank_injective s (le_antisymm (leastc b hb) (least c okc))]

theorem selectReference_manual {s : State} (h : s.tb.refMode = .manual) :
    selectReference s = s.tb.chosen.filter fun p => eligible s.mgmt.frame (s.port p) := by
  simp [selectReference, h]

theorem selectReference_auto {s : State} (h : s.tb.refMode = .auto) :
    selectReference s =
      match s.tb.ref, s.bestEligible with
      | some r, some b =>
        if s.eligiblePort r ∧ markerHop (s.port r) ≤ markerHop (s.port b) then some r else some b
      | _, b => b := by
  simp only [selectReference, h]
  rfl

/-- AUTO takes none where no port is eligible. -/
theorem selectReference_auto_none {s : State} (h : s.tb.refMode = .auto) (hno : ∀ p, ¬s.eligiblePort p) :
    selectReference s = none := by
  rw [selectReference_auto h, bestEligible_eq_none hno]
  cases s.tb.ref <;> rfl

/-- AUTO keeps an eligible reference that no eligible port is nearer than. -/
theorem selectReference_auto_keeps {s : State} (h : s.tb.refMode = .auto) {r : PortId} (href : s.tb.ref = some r)
    (hr : s.eligiblePort r) (near : ∀ b, s.eligiblePort b → markerHop (s.port r) ≤ markerHop (s.port b)) :
    selectReference s = some r := by
  obtain ⟨b, hb⟩ := exists_bestEligible hr
  rw [selectReference_auto h, href, hb]
  exact if_pos ⟨hr, near b (bestEligible_least hb).1⟩

/-- AUTO takes the best eligible port where the reference is not eligible, or that port is strictly nearer. -/
theorem selectReference_auto_takes {s : State} (h : s.tb.refMode = .auto) {b : PortId} (hb : s.eligiblePort b)
    (least : ∀ a, s.eligiblePort a → portRank s b ≤ portRank s a)
    (nearer : ∀ r, s.tb.ref = some r → s.eligiblePort r → markerHop (s.port b) < markerHop (s.port r)) :
    selectReference s = some b := by
  rw [selectReference_auto h, bestEligible_eq_some hb least]
  cases href : s.tb.ref with
  | none => rfl
  | some r => exact if_neg fun ⟨hr, le⟩ => (nearer r href hr).not_ge le

/-! ### A reference change sets the reference (R25) -/

@[simp] theorem setServo_ref (v : ServoState) (c : ServoCause) (s : State) : (setServo v c s).tb.ref = s.tb.ref := by
  simp only [setServo]
  split <;> simp

@[simp] theorem enterAcquire_ref (c : ServoCause) (s : State) : (enterAcquire c s).tb.ref = s.tb.ref := by
  simp [enterAcquire]

@[simp] theorem enterHoldover_ref (c : ServoCause) (s : State) : (enterHoldover c s).tb.ref = s.tb.ref := by
  simp only [enterHoldover]
  split <;> simp

@[simp] theorem refChange_ref (new : Option PortId) (s : State) : (refChange new s).tb.ref = new := by
  simp only [refChange]
  split
  · assumption
  · cases new <;> simp

/-! ### The boundary's work after the selection -/

/-- A port isolated in TRAINING is not torn down: it moves nothing of the timebase unit. -/
theorem isolate_training_tb {p : PortId} {s : State} (h : (s.port p).link = .training) (c : IsoCause) (x : Int) :
    (isolate p c x s).tb = s.tb := by
  simp [isolate, h]

/-- The judgement of an attempt moves nothing of the timebase unit. -/
theorem judgeAttempt_tb {p : PortId} {s : State} (h : (s.port p).link = .training) : (judgeAttempt p s).tb = s.tb := by
  simp only [judgeAttempt]
  (repeat' split) <;> simp [isolate_training_tb, h]

@[simp] theorem trainingBoundary_tb (p : PortId) (s : State) : (trainingBoundary p s).tb = s.tb := by
  simp only [trainingBoundary]
  split
  case isTrue training =>
    split
    · simp [offerProbe]
    · exact judgeAttempt_tb training
  case isFalse => rfl

@[simp] theorem judgeCredits_tb (s : State) : (judgeCredits s).1.tb = s.tb := by
  refine List.foldlRecOn (motive := fun r : State × _ => r.1.tb = s.tb) allEntries _ rfl fun r hr en _ => ?_
  refine List.foldlRecOn (motive := fun r : State × _ => r.1.tb = s.tb) allPorts _ hr fun r hr p _ => ?_
  simpa using hr

@[simp] theorem placeQuiesce_tb (p : PortId) (s : State) : (placeQuiesce p s).tb = s.tb := by
  simp only [placeQuiesce]
  split <;> simp

@[simp] theorem placeResume_tb (p : PortId) (s : State) : (placeResume p s).tb = s.tb := by
  simp only [placeResume]
  split <;> simp

@[simp] theorem placeCredits_tb (p : PortId) (s : State) : (placeCredits p s).tb = s.tb :=
  forEntries_keeps (·.tb) (by intro en s; split <;> simp) s

@[simp] theorem placeQueries_tb (due : List (EntryId × PortId)) (p : PortId) (s : State) :
    (placeQueries due p s).tb = s.tb :=
  foldl_keeps (·.tb) (f := fun (d : EntryId × PortId) s => if d.2 = p then placeQuery d.1 p s else s)
    (by intro d s; split <;> simp) due s

@[simp] theorem placeOwed_tb (due : List (EntryId × PortId)) (p : PortId) (s : State) :
    (placeOwed due p s).tb = s.tb := by
  simp only [placeOwed]
  split <;> simp

/-- The ports' work at a boundary moves nothing of the timebase unit. -/
@[simp] theorem portsBoundary_tb (s : State) : (portsBoundary s).tb = s.tb := by
  let trained := forPorts trainingBoundary (forPorts decayScore s)
  let judged := judgeCredits trained
  calc (portsBoundary s).tb
      = (forPorts (placeOwed judged.2) judged.1).tb := forPorts_keeps (·.tb) (by simp [expireOwed]) _
    _ = judged.1.tb := forPorts_keeps (·.tb) (by simp) _
    _ = trained.tb := judgeCredits_tb _
    _ = (forPorts decayScore s).tb := forPorts_keeps (·.tb) (by simp) _
    _ = s.tb := forPorts_keeps (·.tb) (by simp [decayScore]) _

@[simp] theorem slotBoundary_ref (k : SlotId) (s : State) : (slotBoundary k s).tb.ref = s.tb.ref := by
  simp only [slotBoundary]
  (repeat' split) <;> simp

@[simp] theorem strobeBoundary_tb (k : SlotId) (s : State) : (strobeBoundary k s).tb = s.tb := by
  simp only [strobeBoundary]
  split <;> simp

/-- After the timebase unit's own work, no block's work at a boundary moves the reference. -/
theorem epochBoundary_ref (s : State) : (epochBoundary s).tb.ref = (timebaseBoundary s).tb.ref := by
  have streams (u : State) : (forEntries streamBoundary u).tb = u.tb := forEntries_keeps (·.tb) (by simp) u
  have clocks (u : State) : (forSlots slotBoundary u).tb.ref = u.tb.ref := forSlots_keeps (·.tb.ref) (by simp) u
  have strobes (u : State) : (forSlots strobeBoundary u).tb = u.tb := forSlots_keeps (·.tb) (by simp) u
  simp [epochBoundary, streams, clocks, strobes]

/-- A boundary leaves the root its reference (R9). -/
theorem epochBoundary_ref_root {s : State} (h : s.tb.role = .root) : (epochBoundary s).tb.ref = s.tb.ref := by
  simp [epochBoundary_ref, timebaseBoundary_eq, h]

/-- A boundary gives a member the reference selected. -/
theorem epochBoundary_ref_member {s : State} (h : s.tb.role = .member) :
    (epochBoundary s).tb.ref = selectReference (beforeSelection s) := by
  simp [epochBoundary_ref, timebaseBoundary_eq, h]

theorem exec_epochBoundary {s : State} (h : s.inReset = false) : exec .epochBoundary s = .next (epochBoundary s) :=
  unlessReset_out h epochBoundary

/-! ### The statement -/

/-- Settles O22: the boundary gives a member what `selectReference` gives over the aged records, where the ports are eligible
and ranked as the statement says. -/
theorem selectionTakesBestPort : Obligations.SelectionTakesBestPort := by
  intro s out
  refine ⟨epochBoundary s, exec_epochBoundary out, ?_⟩
  intro ok hop better
  have ok_iff (p : PortId) : (beforeSelection s).eligiblePort p ↔ ok p := eligible_beforeSelection p s
  have hop_eq (p : PortId) : markerHop ((beforeSelection s).port p) = hop p := markerHop_beforeSelection p s
  have rank_le (a b : PortId) : portRank (beforeSelection s) a ≤ portRank (beforeSelection s) b ↔ better a b := by
    rw [portRank_beforeSelection]
    exact portRank_le_iff s a b
  obtain ⟨-, -, ref_eq, mode_eq, chosen_eq⟩ := beforeSelection_frame s
  refine ⟨epochBoundary_ref_root, fun member manual => ?_, fun member auto => ?_⟩
  all_goals rw [epochBoundary_ref_member member]
  · rw [selectReference_manual (mode_eq.trans manual), chosen_eq]
    refine ⟨fun p chosen => ⟨fun h => ?_, fun h => ?_⟩, fun chosen => by rw [chosen]; rfl⟩
    · rw [chosen, Option.filter_some, if_pos ((ok_iff p).mpr h)]
    · rw [chosen, Option.filter_some, if_neg (mt (ok_iff p).mp h)]
  · have auto := mode_eq.trans auto
    refine ⟨fun hno => ?_, fun r href hr near => ?_, fun b hb least nearer => ?_⟩
    · exact selectReference_auto_none auto fun p => mt (ok_iff p).mp (hno p)
    · refine selectReference_auto_keeps auto (ref_eq.trans href) ((ok_iff r).mpr hr) fun b hb => ?_
      simpa only [hop_eq] using near b ((ok_iff b).mp hb)
    · refine selectReference_auto_takes auto ((ok_iff b).mpr hb) (fun a ha => ?_) fun r href hr => ?_
      · exact (rank_le b a).mpr (least a ((ok_iff a).mp ha))
      · simpa only [hop_eq] using nearer r (ref_eq.symm.trans href) ((ok_iff r).mp hr)

end Sys2Proof.Machine
end

section
/-! Regions (R41): the coupled usable windows as a sorted list of intervals, and what merging it keeps and brings about. -/
namespace Sys2Proof.Machine

/-! ### The intervals of a coupled set -/

/-- The order of the intervals that a region is merged from. -/
abbrev StartsNoLater (a b : Int × Int) : Prop := a.1 ≤ b.1

/-- The model sorts intervals as the library's insertion sort does. -/
theorem foldr_insertInterval (ivs : List (Int × Int)) : ivs.foldr insertInterval [] = ivs.insertionSort StartsNoLater := by
  have insert_eq (iv : Int × Int) (l : List (Int × Int)) : insertInterval iv l = l.orderedInsert StartsNoLater iv := by
    induction l with
    | nil => rfl
    | cons jv rest ih => rw [insertInterval, ih, List.orderedInsert_cons]
  rw [List.insertionSort, funext₂ insert_eq]

/-- The intervals of the coupled usable windows by their lower ends, before any is merged. -/
def coupledIntervals (u : WindowUnit) (coupled : Set4) : List (Int × Int) :=
  ((allWins.filter fun w => inSet coupled w.val && u.wins[w].inForce.usable).map fun w =>
    (u.wins[w].inForce.lower, u.wins[w].inForce.upper)).insertionSort StartsNoLater

/-- What a region is: no interval where there is none to merge, else the merged intervals. -/
theorem region_cases (u : WindowUnit) (coupled : Set4) :
    coupledIntervals u coupled = [] ∧ region u coupled = [] ∨
      ∃ iv rest, coupledIntervals u coupled = iv :: rest ∧ region u coupled = mergeIntervals iv rest := by
  simp only [region, foldr_insertInterval, coupledIntervals]
  cases List.insertionSort StartsNoLater _ with
  | nil => exact .inl ⟨rfl, rfl⟩
  | cons iv rest => exact .inr ⟨iv, rest, rfl, rfl⟩

theorem coupledIntervals_pairwise (u : WindowUnit) (coupled : Set4) :
    (coupledIntervals u coupled).Pairwise StartsNoLater :=
  have : Std.Total StartsNoLater := ⟨fun a b => le_total a.1 b.1⟩
  have : IsTrans (Int × Int) StartsNoLater := ⟨fun _ _ _ => le_trans⟩
  List.pairwise_insertionSort ..

theorem mem_allWins (w : WinId) : w ∈ allWins := by
  fin_cases w <;> simp [allWins]

theorem mem_coupledIntervals {u : WindowUnit} {coupled : Set4} {iv : Int × Int} :
    iv ∈ coupledIntervals u coupled ↔ ∃ w : WinId, (coupled.getLsbD w.val = true ∧ u.wins[w].inForce.usable = true) ∧
      (u.wins[w].inForce.lower, u.wins[w].inForce.upper) = iv := by
  simp only [coupledIntervals, List.mem_insertionSort, List.mem_map, List.mem_filter, mem_allWins, true_and, inSet,
    Bool.and_eq_true]

theorem WinSetting.usable_iff (v : WinSetting) : v.usable = true ↔ v.inUse = true ∧ v.lower ≤ v.upper := by
  simp [WinSetting.usable]

/-! ### Merging -/

theorem inRegion_iff (ivs : List (Int × Int)) (e : Int) :
    inRegion ivs e = true ↔ ∃ iv ∈ ivs, iv.1 ≤ e ∧ e ≤ iv.2 := by
  simp [inRegion]

theorem inRegion_cons (iv : Int × Int) (ivs : List (Int × Int)) (e : Int) :
    inRegion (iv :: ivs) e = true ↔ (iv.1 ≤ e ∧ e ≤ iv.2) ∨ inRegion ivs e = true := by
  simp [inRegion]

/-- Intervals stay sorted when the first takes in the second, whatever its upper end becomes. -/
theorem pairwise_absorb {iv jv : Int × Int} {rest : List (Int × Int)} (hi : Int)
    (h : (iv :: jv :: rest).Pairwise StartsNoLater) : ((iv.1, hi) :: rest).Pairwise StartsNoLater := by
  obtain ⟨least, tail⟩ := List.pairwise_cons.mp h
  exact List.pairwise_cons.mpr ⟨fun x hx => least x (List.mem_cons_of_mem jv hx), tail.of_cons⟩

/-- Merging sorted intervals keeps their union: an interval and one that overlaps it or is adjacent to it leave no gap. -/
theorem inRegion_mergeIntervals {iv : Int × Int} {rest : List (Int × Int)} (sorted : (iv :: rest).Pairwise StartsNoLater)
    (e : Int) : inRegion (mergeIntervals iv rest) e = true ↔ inRegion (iv :: rest) e = true := by
  fun_induction mergeIntervals iv rest with
  | case1 iv => rfl
  | case2 iv jv rest touch ih =>
    have le : iv.1 ≤ jv.1 := List.rel_of_pairwise_cons sorted List.mem_cons_self
    have join : iv.1 ≤ e ∧ e ≤ max iv.2 jv.2 ↔ (iv.1 ≤ e ∧ e ≤ iv.2) ∨ (jv.1 ≤ e ∧ e ≤ jv.2) := by omega
    rw [ih (pairwise_absorb _ sorted), inRegion_cons, inRegion_cons, inRegion_cons, join, or_assoc]
  | case3 iv jv rest _ ih => rw [inRegion_cons, inRegion_cons iv, ih sorted.of_cons]

/-- No merged interval starts below the first of the sorted intervals. -/
theorem mergeIntervals_lower {iv : Int × Int} {rest : List (Int × Int)} (sorted : (iv :: rest).Pairwise StartsNoLater) :
    ∀ m ∈ mergeIntervals iv rest, iv.1 ≤ m.1 := by
  fun_induction mergeIntervals iv rest with
  | case1 iv => simp
  | case2 iv jv rest _ ih => exact ih (pairwise_absorb _ sorted)
  | case3 iv jv rest _ ih =>
    have le : iv.1 ≤ jv.1 := List.rel_of_pairwise_cons sorted List.mem_cons_self
    exact List.forall_mem_cons.mpr ⟨le_rfl, fun m hm => le.trans (ih sorted.of_cons m hm)⟩

/-- Merged intervals neither overlap nor touch. -/
theorem mergeIntervals_pairwise {iv : Int × Int} {rest : List (Int × Int)}
    (sorted : (iv :: rest).Pairwise StartsNoLater) :
    (mergeIntervals iv rest).Pairwise fun a b => a.2 + 1 < b.1 := by
  fun_induction mergeIntervals iv rest with
  | case1 iv => simp
  | case2 iv jv rest _ ih => exact ih (pairwise_absorb _ sorted)
  | case3 iv jv rest apart ih =>
    have tail := sorted.of_cons
    exact List.pairwise_cons.mpr
      ⟨fun m hm => (not_le.mp apart).trans_le (mergeIntervals_lower tail m hm), ih tail⟩

/-- Merging intervals that each hold a value gives such intervals. -/
theorem mergeIntervals_nonempty {iv : Int × Int} {rest : List (Int × Int)} (holds : ∀ m ∈ iv :: rest, m.1 ≤ m.2) :
    ∀ m ∈ mergeIntervals iv rest, m.1 ≤ m.2 := by
  fun_induction mergeIntervals iv rest with
  | case1 iv => exact holds
  | case2 iv jv rest _ ih =>
    obtain ⟨first, others⟩ := List.forall_mem_cons.mp holds
    exact ih (List.forall_mem_cons.mpr ⟨le_max_of_le_left first, (List.forall_mem_cons.mp others).2⟩)
  | case3 iv jv rest _ ih =>
    obtain ⟨first, others⟩ := List.forall_mem_cons.mp holds
    exact List.forall_mem_cons.mpr ⟨first, ih others⟩

/-! ### The region -/

/-- A region holds the values that its unmerged intervals hold. -/
theorem inRegion_region (u : WindowUnit) (coupled : Set4) (e : Int) :
    inRegion (region u coupled) e = true ↔ inRegion (coupledIntervals u coupled) e = true := by
  have sorted := coupledIntervals_pairwise u coupled
  obtain ⟨nothing, empty⟩ | ⟨iv, rest, cons_eq, merged⟩ := region_cases u coupled
  · rw [nothing, empty]
  · rw [cons_eq] at sorted ⊢
    rw [merged, inRegion_mergeIntervals sorted]

theorem region_pairwise (u : WindowUnit) (coupled : Set4) : (region u coupled).Pairwise fun a b => a.2 + 1 < b.1 := by
  have sorted := coupledIntervals_pairwise u coupled
  obtain ⟨-, empty⟩ | ⟨iv, rest, cons_eq, merged⟩ := region_cases u coupled
  · simp [empty]
  · rw [cons_eq] at sorted
    exact merged ▸ mergeIntervals_pairwise sorted

theorem region_nonempty (u : WindowUnit) (coupled : Set4) : ∀ iv ∈ region u coupled, iv.1 ≤ iv.2 := by
  have holds : ∀ iv ∈ coupledIntervals u coupled, iv.1 ≤ iv.2 := by
    intro iv hiv
    obtain ⟨w, ⟨-, usable⟩, rfl⟩ := mem_coupledIntervals.mp hiv
    exact ((WinSetting.usable_iff _).mp usable).2
  obtain ⟨-, empty⟩ | ⟨iv, rest, cons_eq, merged⟩ := region_cases u coupled
  · simp [empty]
  · rw [cons_eq] at holds
    exact merged ▸ mergeIntervals_nonempty holds

/-! ### The statement -/

/-- Settles O23: sorting keeps the coupled usable intervals, and merging keeps their union and sets the results apart. That a
window is usable is, of the windows that hold a value, the same as being in use. -/
theorem regionIsUnionOfWindows : Obligations.RegionIsUnionOfWindows := by
  intro u coupled
  refine ⟨fun e => ?_, region_pairwise u coupled, region_nonempty u coupled⟩
  rw [inRegion_region, inRegion_iff]
  constructor
  · rintro ⟨_, hiv, lo, hi⟩
    obtain ⟨w, ⟨member, usable⟩, rfl⟩ := mem_coupledIntervals.mp hiv
    exact ⟨w, member, ((WinSetting.usable_iff _).mp usable).1, lo, hi⟩
  · rintro ⟨w, member, inUse, lo, hi⟩
    have usable := (WinSetting.usable_iff _).mpr ⟨inUse, lo.trans hi⟩
    exact ⟨_, mem_coupledIntervals.mpr ⟨w, ⟨member, usable⟩, rfl⟩, lo, hi⟩

end Sys2Proof.Machine
end

section
/-! The notices (R202 to R205): what a notice offered does to the list, what `ntc.get` takes of it, the masks that `ntc.mask`
sets, and what the resets leave of all three. -/
namespace Sys2Proof.Machine
open Safety

/-! ### A notice offered (R202) -/

theorem raiseNotice_masked {k : NoticeKind} {s : State} (h : s.mgmt.masked.getLsbD k.code = true) (n : Nat) (d x : Int) :
    raiseNotice k n d x s = s :=
  if_pos h

theorem raiseNotice_stored {k : NoticeKind} {s : State} (enabled : s.mgmt.masked.getLsbD k.code = false)
    (room : s.mgmt.notices.length < 32) (n : Nat) (d x : Int) :
    raiseNotice k n d x s =
      { s with mgmt := { s.mgmt with notices := s.mgmt.notices ++ [noticeNow k n d x s] } } :=
  (if_neg (ne_true_of_eq_false enabled)).trans (if_pos room)

theorem raiseNotice_dropped {k : NoticeKind} {s : State} (enabled : s.mgmt.masked.getLsbD k.code = false)
    (full : 32 ≤ s.mgmt.notices.length) (n : Nat) (d x : Int) :
    raiseNotice k n d x s =
      { s with mgmt := { s.mgmt with lostFlag := true, lostCount := satInc 65535 s.mgmt.lostCount } } :=
  (if_neg (ne_true_of_eq_false enabled)).trans (if_neg full.not_gt)

/-! ### ATTN and the reply flags (R196, R203) -/

theorem attn_iff (s : State) : s.attn = true ↔ s.mgmt.notices ≠ [] := by
  simp [State.attn]

theorem attn_eq_false {s : State} (h : s.mgmt.notices = []) : s.attn = false := by
  simp [State.attn, h]

/-- A flags byte holds its flags bit by bit. -/
theorem flagsByte_getLsbD (bs : List Bool) {i : Nat} (h : i < 8) : (flagsByte bs).getLsbD i = bs.getD i false := by
  have bit_of_sum (bs : List Bool) (i : Nat) :
      (bs.foldr (fun (b : Bool) v => (if b then 1 else 0) + 2 * v) 0).testBit i = bs.getD i false := by
    induction bs generalizing i with
    | nil => simp
    | cons b bs ih =>
      cases i with
      | zero => cases b <;> simp
      | succ i =>
        have half (v : Nat) : ((if b then 1 else 0) + 2 * v) / 2 = v := by split <;> omega
        rw [List.foldr_cons, Nat.testBit_add_one, half, ih, List.getD_cons_succ]
  rw [flagsByte, BitVec.getLsbD_ofNat, bit_of_sum]
  simp [h]

/-! ### Taking notices in class order (R204) -/

/-- The class a notice is taken by. -/
abbrev Notice.cls (x : Notice) : Nat := classOfCode x.kind.code

theorem Notice.cls_pos (x : Notice) : 0 < x.cls := by
  simp only [Notice.cls, classOfCode]
  (repeat' split) <;> decide

theorem Notice.cls_le (x : Notice) : x.cls ≤ 5 := by
  simp only [Notice.cls, classOfCode]
  (repeat' split) <;> decide

/-- A list of notices is parted into those taken and those left: the left ones keep their order, and within each class those
taken stood before those left. -/
structure Parts (ns taken left : List Notice) : Prop where
  left_sublist : left.Sublist ns
  filter_eq : ∀ c, ns.filter (·.cls == c) = taken.filter (·.cls == c) ++ left.filter (·.cls == c)

namespace Parts

theorem nothing (ns : List Notice) : Parts ns [] ns := ⟨.refl ns, fun _ => rfl⟩

/-- No notice is lost or doubled: it stands as often in its class. -/
theorem perm {ns taken left : List Notice} (h : Parts ns taken left) : ns.Perm (taken ++ left) := by
  refine List.perm_iff_count.mpr fun x => ?_
  have own_class (l : List Notice) : (l.filter (·.cls == x.cls)).count x = l.count x := List.count_filter (by simp)
  rw [← own_class ns, h.filter_eq, List.count_append, own_class, own_class, List.count_append]

theorem mem_of_taken {ns taken left : List Notice} (h : Parts ns taken left) {x : Notice} (hx : x ∈ taken) : x ∈ ns :=
  h.perm.mem_iff.mpr (List.mem_append_left left hx)

theorem length_eq {ns taken left : List Notice} (h : Parts ns taken left) : ns.length = taken.length + left.length := by
  rw [h.perm.length_eq, List.length_append]

theorem append {ns taken left more rest : List Notice} (h : Parts ns taken left) (h' : Parts left more rest) :
    Parts ns (taken ++ more) rest where
  left_sublist := h'.left_sublist.trans h.left_sublist
  filter_eq c := by rw [h.filter_eq, h'.filter_eq, List.filter_append, List.append_assoc]

/-- One more notice at the front, taken. -/
theorem cons_taken {ns taken left : List Notice} (h : Parts ns taken left) (x : Notice) :
    Parts (x :: ns) (x :: taken) left where
  left_sublist := h.left_sublist.cons x
  filter_eq c := by
    rw [List.filter_cons, List.filter_cons, h.filter_eq]
    split <;> rfl

/-- One more notice at the front, left: no notice of its class is taken from behind it. -/
theorem cons_left {ns taken left : List Notice} (h : Parts ns taken left) {x : Notice}
    (other : ∀ y ∈ taken, y.cls ≠ x.cls) : Parts (x :: ns) taken (x :: left) where
  left_sublist := h.left_sublist.cons_cons x
  filter_eq c := by
    rw [List.filter_cons, List.filter_cons, h.filter_eq]
    split
    case isFalse => rfl
    case isTrue hc =>
      have none_taken : taken.filter (·.cls == c) = [] := by
        simp only [beq_iff_eq] at hc
        simpa [List.filter_eq_nil_iff, hc] using other
      rw [none_taken, List.nil_append, List.nil_append]

end Parts

theorem takeClass_cls (c n : Nat) (ns : List Notice) : ∀ x ∈ (takeClass c n ns).1, x.cls = c := by
  fun_induction takeClass c n ns with
  | case1 => simp
  | case2 => simp
  | case3 n x xs hc r ih => simpa [hc] using ih
  | case4 n x xs hc r ih => exact ih

theorem takeClass_parts (c n : Nat) (ns : List Notice) : Parts ns (takeClass c n ns).1 (takeClass c n ns).2 := by
  fun_induction takeClass c n ns with
  | case1 => exact .nothing []
  | case2 ns => exact .nothing _
  | case3 n x xs hc r ih => exact ih.cons_taken x
  | case4 n x xs hc r ih =>
    refine ih.cons_left fun y hy same => hc ?_
    exact same.symm.trans (takeClass_cls c (n + 1) xs y hy)

theorem takeClass_length_le (c n : Nat) (ns : List Notice) : (takeClass c n ns).1.length ≤ n := by
  fun_induction takeClass c n ns with
  | case1 => simp
  | case2 => simp
  | case3 n x xs hc r ih => simpa using ih
  | case4 n x xs hc r ih => exact ih

/-- A class is left only where the count is used up. -/
theorem takeClass_full_or_none (c n : Nat) (ns : List Notice) :
    (takeClass c n ns).1.length = n ∨ ∀ x ∈ (takeClass c n ns).2, x.cls ≠ c := by
  fun_induction takeClass c n ns with
  | case1 => simp
  | case2 => simp
  | case3 n x xs hc r ih => simpa using ih
  | case4 n x xs hc r ih => exact ih.imp_right fun none => List.forall_mem_cons.mpr ⟨hc, none⟩

/-- The notices taken when the classes up to `c` have had their turn. -/
structure TakenTo (c n : Nat) (ns taken left : List Notice) : Prop where
  parts : Parts ns taken left
  length_le : taken.length ≤ n
  sorted : taken.Pairwise fun a b => a.cls ≤ b.cls
  before_left : ∀ a ∈ taken, ∀ b ∈ left, a.cls ≤ b.cls
  full_or_above : taken.length = n ∨ ∀ b ∈ left, c < b.cls

namespace TakenTo

theorem start (n : Nat) (ns : List Notice) : TakenTo 0 n ns [] ns where
  parts := .nothing ns
  length_le := Nat.zero_le n
  sorted := .nil
  before_left := by simp
  full_or_above := .inr fun b _ => b.cls_pos

/-- The turn of the next class. -/
theorem next {c n : Nat} {ns taken left : List Notice} (h : TakenTo c n ns taken left) :
    TakenTo (c + 1) n ns (taken ++ (takeClass (c + 1) (n - taken.length) left).1)
      (takeClass (c + 1) (n - taken.length) left).2 := by
  have more_parts := takeClass_parts (c + 1) (n - taken.length) left
  have more_cls := takeClass_cls (c + 1) (n - taken.length) left
  have more_length := takeClass_length_le (c + 1) (n - taken.length) left
  have more_stop := takeClass_full_or_none (c + 1) (n - taken.length) left
  generalize (takeClass (c + 1) (n - taken.length) left).1 = more at *
  generalize (takeClass (c + 1) (n - taken.length) left).2 = rest at *
  have le := h.length_le
  have rest_sub : ∀ b ∈ rest, b ∈ left := fun _ hb => more_parts.left_sublist.subset hb
  have above_or_none : (∀ b ∈ left, c < b.cls) ∨ more = [] := by
    refine h.full_or_above.symm.imp_right fun full => List.length_eq_zero_iff.mp ?_
    omega
  refine ⟨h.parts.append more_parts, by simp; omega, ?_, ?_, ?_⟩
  · refine List.pairwise_append.mpr ⟨h.sorted, ?_, fun a ha b hb => h.before_left a ha b (more_parts.mem_of_taken hb)⟩
    exact List.pairwise_of_forall_mem_list fun a ha b hb => ((more_cls a ha).trans (more_cls b hb).symm).le
  · intro a ha b hb
    obtain old | new := List.mem_append.mp ha
    · exact h.before_left a old b (rest_sub b hb)
    · obtain above | none := above_or_none
      · exact (more_cls a new).trans_le (above b (rest_sub b hb))
      · simp [none] at new
  · rw [List.length_append]
    obtain full | above := h.full_or_above
    · left; omega
    · refine more_stop.imp (by omega) fun none b hb => ?_
      have := above b (rest_sub b hb)
      have := none b hb
      omega

/-- After the last class the list is empty or the count used up. -/
theorem length_eq {n : Nat} {ns taken left : List Notice} (h : TakenTo 5 n ns taken left) : taken.length = min n ns.length := by
  have total := h.parts.length_eq
  have le := h.length_le
  obtain full | above := h.full_or_above
  · omega
  · have empty : left = [] := List.eq_nil_iff_forall_not_mem.mpr fun b hb => (above b hb).not_ge b.cls_le
    rw [empty, List.length_nil] at total
    omega

end TakenTo

theorem takeNotices_takenTo (n : Nat) (ns : List Notice) : TakenTo 5 n ns (takeNotices n ns).1 (takeNotices n ns).2 :=
  (TakenTo.start n ns).next.next.next.next.next

theorem exec_ntcGet {s : State} (out : s.inReset = false) {count : Option Nat} (ok : optIn 1 15 count = true) :
    exec (.ntcGet count) s =
      let r := takeNotices (count.getD 15) s.mgmt.notices
      .next (answered .ok
        ([BitVec.ofNat 8 r.1.length, BitVec.ofNat 8 r.2.length, boolByte s.mgmt.lostFlag] ++ beBytes 2 s.mgmt.lostCount ++
          r.1.flatMap noticeBytes)
        { s with mgmt := { s.mgmt with notices := r.2, lostFlag := false, lostCount := 0 } }) := by
  simp only [exec, execNtcGet, unlessReset_out out, if_pos ok]
  rfl

theorem exec_ntcGet_refused {s : State} (out : s.inReset = false) {count : Option Nat} (bad : optIn 1 15 count = false) :
    exec (.ntcGet count) s = .next (answered .badValue [] s) := by
  simp only [exec, execNtcGet, unlessReset_out out, bad]
  rfl

/-- Settles O56: after the turn of each class, the notices taken are sorted, none of them is of a class above one left, and the
classes that have had their turn are left only where the count is used up. -/
theorem ntcGetTakesClassOrder : Obligations.NtcGetTakesClassOrder := by
  intro count s out
  refine ⟨?_, fun inRange => ?_⟩
  · rintro ⟨n, rfl, bad⟩
    refine exec_ntcGet_refused out ?_
    simp [optIn]
    omega
  · have ok : optIn 1 15 count = true := by
      cases count with
      | none => rfl
      | some n => simpa [optIn] using inRange n rfl
    have h := takeNotices_takenTo (count.getD 15) s.mgmt.notices
    exact ⟨_, _, exec_ntcGet out ok, h.length_eq, h.parts.left_sublist, h.parts.perm, h.sorted, h.before_left,
      h.parts.filter_eq⟩

/-! ### The kinds a list names (R205) -/

theorem withBit_getLsbD {n : Nat} (m : BitVec n) (c : Nat) {i : Nat} (h : i < n) :
    (withBit m c).getLsbD i = (m.getLsbD i || decide (c = i)) := by
  rw [withBit, bitOf, BitVec.getLsbD_or, BitVec.getLsbD_ofNat, Nat.testBit_two_pow]
  simp only [h, decide_true, Bool.true_and]

/-- Gathering the numbers of a list that pass a test. -/
theorem foldl_withBit_getLsbD {n : Nat} (f : Nat → Bool) (l : List Nat) (m : BitVec n) {i : Nat} (h : i < n) :
    (l.foldl (fun m c => if f c then withBit m c else m) m).getLsbD i = (m.getLsbD i || decide (i ∈ l) && f i) := by
  induction l generalizing m with
  | nil => simp
  | cons c l ih =>
    rw [List.foldl_cons, ih, apply_ite (BitVec.getLsbD · i), withBit_getLsbD m c h]
    grind

theorem NoticeKind.code_lt (k : NoticeKind) : k.code < 36 := by
  cases k <;> decide

/-- Every code of the table is a kind's. -/
theorem NoticeKind.exists_code {i : Nat} (h : i < 36) : ∃ k : NoticeKind, k.code = i :=
  ⟨.ofNat i, (by decide : ∀ i < 36, (NoticeKind.ofNat i).code = i) i h⟩

theorem kindsNamed_getLsbD (classes : BitVec 8) (kinds : BitVec 40) (k : NoticeKind) :
    (kindsNamed classes kinds).getLsbD k.code = true ↔
      kinds.getLsbD k.code = true ∨ classes.getLsbD (classOfCode k.code - 1) = true := by
  rw [kindsNamed, foldl_withBit_getLsbD _ _ _ k.code_lt]
  simp [inSet, k.code_lt]

/-- Two sets of kinds that share none. -/
theorem and_eq_zero_iff_kinds (a b : BitVec 36) :
    a &&& b = 0 ↔ ∀ k : NoticeKind, ¬(a.getLsbD k.code = true ∧ b.getLsbD k.code = true) := by
  constructor
  · intro h k
    simpa using congrArg (BitVec.getLsbD · k.code) h
  · intro h
    refine BitVec.eq_of_getLsbD_eq fun i hi => ?_
    obtain ⟨k, rfl⟩ := NoticeKind.exists_code hi
    simpa using h k

/-! ### What the masks outlast (R200, R201) -/

/-- No notice moves the masks. -/
@[simp] theorem raiseNotice_mgmt_masked (k : NoticeKind) (n : Nat) (d x : Int) (s : State) :
    (raiseNotice k n d x s).mgmt.masked = s.mgmt.masked := by
  simp only [raiseNotice]
  (repeat' split) <;> rfl

@[simp] theorem rootRule_mgmt_masked (c : QualCause) (n : QualName) (s : State) :
    (rootRule c n s).mgmt.masked = s.mgmt.masked := by
  simp only [rootRule, setQual, qualNotice]
  (repeat' split) <;> simp

@[simp] theorem leaveReset_mgmt_masked (s : State) : (leaveReset s).mgmt.masked = s.mgmt.masked := by
  simp [leaveReset]

@[simp] theorem heldChanged_mgmt_masked (en : EntryId) (s : State) : (heldChanged en s).mgmt.masked = s.mgmt.masked := by
  simp only [heldChanged, closeIfEmpty, closeEntry, stallReturn]
  (repeat' split) <;> simp

@[simp] theorem sweep_mgmt_masked (en : EntryId) (s : State) : (sweep en s).mgmt.masked = s.mgmt.masked := by
  simp only [sweep]
  split <;> simp

@[simp] theorem trafficClose_mgmt_masked (en : EntryId) (s : State) : (trafficClose en s).mgmt.masked = s.mgmt.masked := by
  simp only [trafficClose, closeBlock]
  (repeat' split) <;> simp

/-! ### The resets (R200, R201) -/

/-- RESET asserted and released, from a hub out of reset. -/
theorem exec_resetPin_cycle {s : State} (out : s.inReset = false) (straps : Straps) :
    exec (.resetPin true straps) s = .next (holdBlocks s) ∧
      exec (.resetPin false straps) (holdBlocks s) =
        .next (leaveReset (resetBlocks straps.root straps.portEn (holdBlocks s))) := by
  refine ⟨?_, rfl⟩
  simp [exec, execResetPin, out]

/-- The masks and the list after `hub.reset` ALL are those of the blocks as they leave reset. -/
theorem exec_hubResetAll {s : State} (out : s.inReset = false) (root portEn : Bool) :
    ∃ t, exec (.hubResetAll root portEn) s = .next t ∧
      t.mgmt.masked = (leaveReset (resetBlocks root portEn s)).mgmt.masked ∧
      t.mgmt.notices = (leaveReset (resetBlocks root portEn s)).mgmt.notices := by
  simp only [exec, execHubResetAll, unlessReset_out out]
  exact ⟨_, rfl, rfl, rfl⟩

theorem resetTraffic_mgmt_masked (s : State) : (resetTraffic s).mgmt.masked = s.mgmt.masked := by
  simp only [resetTraffic]
  exact forEntries_keeps (·.mgmt.masked) trafficClose_mgmt_masked s

/-- The masks and the list after `hub.reset` TRAFFIC. -/
theorem exec_hubResetTraffic {s : State} (out : s.inReset = false) :
    ∃ t, exec .hubResetTraffic s = .next t ∧ t.mgmt.masked = s.mgmt.masked ∧ t.mgmt.notices = [] := by
  refine ⟨(resetTraffic s).accept, by simp only [exec, execHubResetTraffic, unlessReset_out out], ?_, rfl⟩
  simp only [State.accept_eq, State.reply_mgmt, resetTraffic_mgmt_masked]

/-- The root rule is not a member's (R45). -/
theorem rootRule_member {s : State} (h : s.tb.role = .member) (c : QualCause) (n : QualName) : rootRule c n s = s :=
  if_neg (by simp [h])

/-- A member announces nothing as it leaves reset (R200). -/
theorem leaveReset_member {s : State} (h : s.tb.role = .member) : leaveReset s = s := by
  rw [leaveReset, rootRule_member h, rootRule_member h]

theorem leaveReset_resetBlocks_member_notices (portEn : Bool) (s : State) :
    (leaveReset (resetBlocks false portEn s)).mgmt.notices = [] := by
  rw [leaveReset_member rfl]
  rfl

/-! ### `ntc.mask` (R205) -/

/-- The ranges of `ntc.mask`: no class or kind outside the table, and no kind in both lists. -/
def masksInRange (r : NtcMaskReq) : Prop :=
  r.maskClasses.toNat < 2 ^ 5 ∧ r.enableClasses.toNat < 2 ^ 5 ∧ r.maskKinds.toNat < 2 ^ 36 ∧
    r.enableKinds.toNat < 2 ^ 36 ∧ kindsNamed r.maskClasses r.maskKinds &&& kindsNamed r.enableClasses r.enableKinds = 0

/-- The masks after an accepted `ntc.mask`. -/
def masksAfter (r : NtcMaskReq) (m : BitVec 36) : BitVec 36 :=
  (m ||| kindsNamed r.maskClasses r.maskKinds) &&& ~~~kindsNamed r.enableClasses r.enableKinds

theorem exec_ntcMask {s : State} (out : s.inReset = false) {r : NtcMaskReq} (ok : masksInRange r) :
    exec (.ntcMask r) s = .next (answered .ok (beBytes 5 (masksAfter r s.mgmt.masked).toNat)
      { s with mgmt := { s.mgmt with masked := masksAfter r s.mgmt.masked } }) := by
  simp only [exec, execNtcMask, unlessReset_out out]
  exact congrArg _ (if_pos ok)

theorem exec_ntcMask_refused {s : State} (out : s.inReset = false) {r : NtcMaskReq} (bad : ¬masksInRange r) :
    exec (.ntcMask r) s = .next (answered .badValue [] s) := by
  simp only [exec, execNtcMask, unlessReset_out out]
  exact congrArg _ (if_neg bad)

theorem masksAfter_getLsbD (r : NtcMaskReq) (m : BitVec 36) (k : NoticeKind) :
    (masksAfter r m).getLsbD k.code = ((m.getLsbD k.code || (kindsNamed r.maskClasses r.maskKinds).getLsbD k.code) &&
      !(kindsNamed r.enableClasses r.enableKinds).getLsbD k.code) := by
  simp [masksAfter, k.code_lt]

/-- Settles O57: the masks are the set with the kinds named to mask joined and those named to enable taken out, of which no kind
is in both; a reset sets them to nothing masked, and no notice moves them. -/
theorem ntcMaskSetsMasks : Obligations.NtcMaskSetsMasks := by
  intro r s out names masks enables bad
  have masks_iff (k : NoticeKind) : (kindsNamed r.maskClasses r.maskKinds).getLsbD k.code = true ↔ masks k :=
    kindsNamed_getLsbD _ _ k
  have enables_iff (k : NoticeKind) : (kindsNamed r.enableClasses r.enableKinds).getLsbD k.code = true ↔ enables k :=
    kindsNamed_getLsbD _ _ k
  have inRange_iff : masksInRange r ↔ ¬bad := by
    simp only [masksInRange, and_eq_zero_iff_kinds, masks_iff, enables_iff, bad, not_or, not_le, not_exists]
    rfl
  refine ⟨fun h => ?_, fun h => ?_, fun straps => ⟨?_, ?_⟩, ?_⟩
  · exact exec_ntcMask_refused out (mt inRange_iff.mp (not_not_intro h))
  · refine ⟨_, exec_ntcMask out (inRange_iff.mpr h), fun k => ?_⟩
    have apart : ¬(masks k ∧ enables k) := fun both => h (.inr (.inr (.inr (.inr ⟨k, both⟩))))
    have not_enabled (h : ¬enables k) : (kindsNamed r.enableClasses r.enableKinds).getLsbD k.code = false :=
      eq_false_of_ne_true (mt (enables_iff k).mp h)
    have not_masked (h : ¬masks k) : (kindsNamed r.maskClasses r.maskKinds).getLsbD k.code = false :=
      eq_false_of_ne_true (mt (masks_iff k).mp h)
    rw [masksAfter_getLsbD]
    refine ⟨fun mask => ?_, fun enable => ?_, fun noMask noEnable => ?_⟩
    · simp only [(masks_iff k).mpr mask, not_enabled fun enable => apart ⟨mask, enable⟩, Bool.or_true, Bool.not_false,
        Bool.and_true]
    · simp only [(enables_iff k).mpr enable, Bool.not_true, Bool.and_false]
    · simp only [not_masked noMask, not_enabled noEnable, Bool.or_false, Bool.not_false, Bool.and_true]
  · obtain ⟨assert_eq, release_eq⟩ := exec_resetPin_cycle out straps
    exact ⟨_, _, assert_eq, rfl, release_eq, leaveReset_mgmt_masked _⟩
  · obtain ⟨t, exec_eq, masked_eq, -⟩ := exec_hubResetAll out straps.root straps.portEn
    exact ⟨t, exec_eq, masked_eq.trans (leaveReset_mgmt_masked _)⟩
  · obtain ⟨t, exec_eq, masked_eq, -⟩ := exec_hubResetTraffic out
    exact ⟨t, exec_eq, masked_eq⟩

/-! ### The list and ATTN (R203) -/

/-- Settles O58: ATTN is read off the list, which a notice joins, is dropped from or leaves as it is by its mask and by the
room, and which `ntc.get` and the resets empty. -/
theorem attnFollowsNotices : Obligations.AttnFollowsNotices := by
  refine ⟨fun s out => ⟨attn_iff s, fun d o => flagsByte_getLsbD _ (by decide), ?_, ?_, ?_, ?_, fun b => ⟨?_, ?_⟩⟩,
    fun k n d x s => ⟨?_, ?_, ?_⟩⟩
  · intro k n d x empty enabled
    rw [raiseNotice_stored enabled (by simp [empty]), attn_iff]
    simp
  · intro k n d x full
    cases enabled : s.mgmt.masked.getLsbD k.code with
    | true => rw [raiseNotice_masked enabled]
    | false => rw [raiseNotice_dropped enabled full]; rfl
  · intro few
    have h := takeNotices_takenTo 15 s.mgmt.notices
    have total := h.parts.length_eq
    have taken := h.length_eq
    have emptied : (takeNotices 15 s.mgmt.notices).2 = [] := List.length_eq_zero_iff.mp (by omega)
    exact ⟨_, exec_ntcGet out rfl, attn_eq_false emptied⟩
  · obtain ⟨t, exec_eq, -, notices_eq⟩ := exec_hubResetTraffic out
    exact ⟨t, exec_eq, attn_eq_false notices_eq⟩
  · obtain ⟨assert_eq, release_eq⟩ := exec_resetPin_cycle out ⟨false, b⟩
    exact ⟨_, _, assert_eq, rfl, release_eq, attn_eq_false (leaveReset_resetBlocks_member_notices b _)⟩
  · obtain ⟨t, exec_eq, -, notices_eq⟩ := exec_hubResetAll out false b
    exact ⟨t, exec_eq, attn_eq_false (notices_eq.trans (leaveReset_resetBlocks_member_notices b s))⟩
  · exact fun silenced => raiseNotice_masked silenced n d x
  · exact fun enabled room => raiseNotice_stored enabled room n d x
  · exact fun enabled full => raiseNotice_dropped enabled full n d x

end Sys2Proof.Machine
end
